-- ==== Sys2Proof/Word.lean ====
section
/-! DEFINITION. The widths of the block's values (R7, R20, R80): every value is unsigned (R8). -/

namespace Sys2Proof

/-- An operation word, 12 bits (R80). -/
abbrev Word := BitVec 12

/-- A byte: a bus data byte, a latch, the read-result byte, a pulse count. -/
abbrev Byte := BitVec 8

/-- A queue slot: one RemoteCommand of two bytes (R50, R51). -/
abbrev Slot := BitVec 16

/-- A bus address (R24, R66). -/
abbrev BusAddr := BitVec 7

/-- A queue index, 0 to 7 (R26, R27; `QIDX_W` of R7). -/
abbrev SlotIdx := BitVec 3

/-- The device class (R7). -/
abbrev DevClass := BitVec 4

/-- The emission counter (R33; `EMIT_W` of R7). -/
abbrev EmitCount := BitVec 9

end Sys2Proof
end

