-- ==== Sys2Proof/Syntax.lean ====
section
/-! DEFINITION. The sixteen operations (R82), the agents that issue them (R13) and the textual forms of a trace
(R88, R89), as data. -/

namespace Sys2Proof

/-- The operations, one constructor per row of the operation map (R82). -/
inductive Instr where
  /-- Own address matched with a write request (R113). -/
  | busAddrRx
  /-- A data byte was received (R116). -/
  | busDataRx (d : Byte)
  /-- A stop or repeated start (R122). -/
  | busStop
  /-- Own address matched with a read request (R125). -/
  | busAddrTx
  /-- The loaded byte was transmitted (R129). -/
  | busDataTx
  /-- Any other status; the raw status `s` is read by no rule (R133). -/
  | busOther (s : Byte)
  /-- `reinitialize(newAddress)` (R140). -/
  | reinit (a : BusAddr)
  /-- Take the oldest command (R150). -/
  | dispTake
  /-- Execute the command in flight; `r` is the read handler's answer (R153). -/
  | dispExec (r : Byte)
  /-- A falling edge on `addr_in` (R170). -/
  | addrFall
  /-- A tick of the burst timer (R174). -/
  | addrTick
  /-- Commit a pending assignment (R180). -/
  | addrCommit
  /-- Emit one pulse (R186). -/
  | addrEmit
  /-- Raise the event line (R200). -/
  | evtAssert
  /-- Lower the event line (R203). -/
  | evtRelease
  /-- A tick of the event-line timer (R206). -/
  | evtTick
  deriving DecidableEq, Repr

/-- The agents that issue operations (R13). The external handlers issue none and have no constructor. -/
inductive Agent where
  | busPeripheral
  | edgeDetector
  | burstTimer
  | evtTimer
  | cooperativeLoop
  deriving DecidableEq, Repr

/-- The two contexts (R232). -/
inductive Context where
  | interrupt
  | cooperative
  deriving DecidableEq, Repr

/-- One line of a trace: the mnemonic with its sub-block, then the operand if there is one (R88). -/
structure TraceLine where
  name : String
  operand : Option Byte
  deriving DecidableEq, Repr

/-- The pseudo-operations (R89). -/
inductive Pseudo where
  | busWrite (c a : Byte)
  | busRead
  | dispOne (r : Byte)
  | addrBurst (k : Nat)
  | addrQuiet
  | addrEmitAll
  | evtTimeout
  deriving DecidableEq, Repr

end Sys2Proof
end

