-- ==== Sys2Proof/WellFormed.lean ====
section
/-! DEFINITION. Which operation words are operations and which are reserved (R81, R84). The operands of `Instr` have
the widths of R83, so every term of `Instr` is an operation; the checks are on the two fields of a word. -/

namespace Sys2Proof

/-- The two fields of an operation word (R81). -/
structure RawOp where
  op : BitVec 4
  d : Byte
  deriving DecidableEq, Repr

/-- Why a word is reserved (R84). -/
inductive Reserved where
  /-- The operation takes no operand and the data byte is not 0x00. -/
  | operandNotZero (op : BitVec 4) (d : Byte)
  /-- A REINIT word with `d[7] = 1`. -/
  | addressBitSeven (d : Byte)
  deriving DecidableEq, Repr

/-- The operation codes whose data byte is free: BUS_DATA_RX, BUS_OTHER, DISP_EXEC (R83, R85). -/
def RawOp.takesByte (r : RawOp) : Bool := r.op == 0x1 || r.op == 0x5 || r.op == 0x8

/-- Check 1 (R84): an operation that takes no operand has `d = 0x00`. -/
def RawOp.operandCheck (r : RawOp) : Bool := r.takesByte || r.op == 0x6 || r.d == 0x00

/-- Check 2 (R84): a REINIT word has `d[7] = 0`. -/
def RawOp.addressCheck (r : RawOp) : Bool := !(r.op == 0x6) || !r.d.getLsbD 7

/-- The word is an operation: neither check fails. -/
def RawOp.wellFormed (r : RawOp) : Bool := r.operandCheck && r.addressCheck

end Sys2Proof
end

