-- ==== Sys2Proof/Decode.lean ====
section
/-! DEFINITION. The decoder (R85), total on every 12-bit word, the encoder, and the operation map as a table of
masks and patterns (R82). -/

namespace Sys2Proof

/-- `op = w[11:8]` and `d = w[7:0]` (R80). -/
def RawOp.ofWord (w : Word) : RawOp where
  op := w.extractLsb' 8 4
  d := w.extractLsb' 0 8

/-- The word with these two fields (R80). -/
def RawOp.toWord (r : RawOp) : Word := r.op ++ r.d

/-- R82: the operation the code names, once its operand has passed the checks. -/
def RawOp.instr (r : RawOp) : Instr :=
  match r.op.toNat with
  | 0x0 => .busAddrRx
  | 0x1 => .busDataRx r.d
  | 0x2 => .busStop
  | 0x3 => .busAddrTx
  | 0x4 => .busDataTx
  | 0x5 => .busOther r.d
  | 0x6 => .reinit (r.d.extractLsb' 0 7)
  | 0x7 => .dispTake
  | 0x8 => .dispExec r.d
  | 0x9 => .addrFall
  | 0xA => .addrTick
  | 0xB => .addrCommit
  | 0xC => .addrEmit
  | 0xD => .evtAssert
  | 0xE => .evtRelease
  | _ => .evtTick

/-- What a word decodes to (R85). -/
inductive Decoded where
  /-- An operation. -/
  | op (i : Instr)
  /-- A reserved word, by name. -/
  | reserved (why : Reserved)
  deriving DecidableEq, Repr

/-- The operation, if the word is one. -/
def Decoded.toOption : Decoded → Option Instr
  | .op i => some i
  | .reserved _ => none

/-- R85: decoding, with a reserved word rejected by name. -/
def decode (w : Word) : Decoded :=
  let r := RawOp.ofWord w
  if !r.addressCheck then .reserved (.addressBitSeven r.d)
  else if !r.operandCheck then .reserved (.operandNotZero r.op r.d)
  else .op r.instr

/-- The two fields of an operation's word, from the map of R82 and the operands of R83. -/
def Instr.raw : Instr → RawOp
  | .busAddrRx => ⟨0x0, 0x00⟩
  | .busDataRx d => ⟨0x1, d⟩
  | .busStop => ⟨0x2, 0x00⟩
  | .busAddrTx => ⟨0x3, 0x00⟩
  | .busDataTx => ⟨0x4, 0x00⟩
  | .busOther s => ⟨0x5, s⟩
  | .reinit a => ⟨0x6, a.setWidth 8⟩
  | .dispTake => ⟨0x7, 0x00⟩
  | .dispExec r => ⟨0x8, r⟩
  | .addrFall => ⟨0x9, 0x00⟩
  | .addrTick => ⟨0xA, 0x00⟩
  | .addrCommit => ⟨0xB, 0x00⟩
  | .addrEmit => ⟨0xC, 0x00⟩
  | .evtAssert => ⟨0xD, 0x00⟩
  | .evtRelease => ⟨0xE, 0x00⟩
  | .evtTick => ⟨0xF, 0x00⟩

/-- The word of an operation (R80, R82). -/
def encode (i : Instr) : Word := i.raw.toWord

/-- The host numbers the bits as the table does, bit 0 least significant; the bits above `nbits` are 0. A number
that is no 12-bit word is no operation (log entry 4). -/
def decodeTableWord (nbits w : Nat) : Option Instr :=
  let v := w % 2 ^ nbits
  if v < 2 ^ 12 then (decode (BitVec.ofNat 12 v)).toOption else none

/-- The mnemonics of R82. -/
def Instr.mnemonic : Instr → String
  | .busAddrRx => "BUS_ADDR_RX"
  | .busDataRx _ => "BUS_DATA_RX"
  | .busStop => "BUS_STOP"
  | .busAddrTx => "BUS_ADDR_TX"
  | .busDataTx => "BUS_DATA_TX"
  | .busOther _ => "BUS_OTHER"
  | .reinit _ => "REINIT"
  | .dispTake => "DISP_TAKE"
  | .dispExec _ => "DISP_EXEC"
  | .addrFall => "ADDR_FALL"
  | .addrTick => "ADDR_TICK"
  | .addrCommit => "ADDR_COMMIT"
  | .addrEmit => "ADDR_EMIT"
  | .evtAssert => "EVT_ASSERT"
  | .evtRelease => "EVT_RELEASE"
  | .evtTick => "EVT_TICK"

/-- A row of the operation map: the words `w` with `w & mask = value` are the row's. -/
structure OpRow where
  mnemonic : String
  value : Word
  mask : Word
  deriving DecidableEq, Repr

/-- The row's words. -/
def OpRow.accepts (r : OpRow) (w : Word) : Bool := w &&& r.mask == r.value

/-- The operation map of R82 with the reserved words of R84 left out, as spec/opcode_table.json lists it. -/
def opTable : List OpRow := [
  ⟨"BUS_ADDR_RX", 0x000, 0xFFF⟩, ⟨"BUS_DATA_RX", 0x100, 0xF00⟩, ⟨"BUS_STOP", 0x200, 0xFFF⟩,
  ⟨"BUS_ADDR_TX", 0x300, 0xFFF⟩, ⟨"BUS_DATA_TX", 0x400, 0xFFF⟩, ⟨"BUS_OTHER", 0x500, 0xF00⟩,
  ⟨"REINIT", 0x600, 0xF80⟩, ⟨"DISP_TAKE", 0x700, 0xFFF⟩, ⟨"DISP_EXEC", 0x800, 0xF00⟩,
  ⟨"ADDR_FALL", 0x900, 0xFFF⟩, ⟨"ADDR_TICK", 0xA00, 0xFFF⟩, ⟨"ADDR_COMMIT", 0xB00, 0xFFF⟩,
  ⟨"ADDR_EMIT", 0xC00, 0xFFF⟩, ⟨"EVT_ASSERT", 0xD00, 0xFFF⟩, ⟨"EVT_RELEASE", 0xE00, 0xFFF⟩,
  ⟨"EVT_TICK", 0xF00, 0xFFF⟩]

end Sys2Proof
end

