-- ==== Sys2Proof/Config.lean ====
section
/-! DEFINITION. The parameters of one instance of the block (R7, R39) and the values the spec leaves open: those are
constants with no body, so that nothing can be proved of a particular value. -/

namespace Sys2Proof

/-- The OPEN parameters of R7. They are fixed from reset on (R70, R276) and no operation writes them. -/
structure Config where
  /-- `READ_SET`: eight bytes (D13). -/
  readSet : Vector Byte 8
  /-- `DEVICE_CLASS` (D26). -/
  deviceClass : DevClass
  /-- `BOOT_ADDRESS`, the reset value of `own_addr` (D25). -/
  bootAddress : BusAddr
  /-- `N_BURST`, at least 1 (D20). -/
  nBurst : Nat
  /-- `M_EVT`, at least 1 (D18). -/
  mEvt : Nat
  deriving DecidableEq, Repr

/-- The ranges R7 gives the two tick parameters: an integer ≥ 1. -/
def Config.wf (c : Config) : Bool := decide (1 ≤ c.nBurst) && decide (1 ≤ c.mEvt)

/-- `BOOT_ADDRESS` is the low seven bits of the byte the persistence store gives at boot (R260, D25). -/
def Config.bootAddressOf (persisted : Byte) : BusAddr := persisted.setWidth 7

/-- The open read-command set of the platform (R7, R64). -/
opaque Config.openReadSet : Vector Byte 8

/-- The open device class of the platform (R7, R66). -/
opaque Config.openDeviceClass : DevClass

/-- The byte `loadPersistedAddress()` returns at boot (R242, R260). -/
opaque Config.openPersistedByte : Byte

/-- `N_BURST - 1` of the platform: any natural number (R7). -/
opaque Config.openBurstExtra : Nat

/-- `M_EVT - 1` of the platform: any natural number (R7). -/
opaque Config.openEvtExtra : Nat

/-- What slot `i` of the queue holds right after reset: unspecified (R28, R260). -/
opaque Config.openSlotAtReset : Nat → Slot

/-- The platform the reset state is for: every parameter at its open value, the two tick counts at least 1. -/
def Config.platform : Config where
  readSet := Config.openReadSet
  deviceClass := Config.openDeviceClass
  bootAddress := Config.bootAddressOf Config.openPersistedByte
  nBurst := Config.openBurstExtra + 1
  mEvt := Config.openEvtExtra + 1

end Sys2Proof
end

