-- ==== Sys2Proof/Machine/State.lean ====
section
/-! DEFINITION. The state of the block: every register of R20 under its own name, the trace record of R40, and three
fields of the model's own: the parameters of the instance, the operation words issued and not yet run, and the record
of the last step. -/

namespace Sys2Proof.Machine

/-- The engine state register, one constructor per code of its three bits (R21). -/
inductive BusState where
  /-- Code 0, Idle. -/
  | idle
  /-- Code 1, WillReceiveCommand. -/
  | wrc
  /-- Code 2, ReceivedCommand. -/
  | rc
  /-- Code 3, ReceivedArgumentByte. -/
  | rab
  /-- Code 4, RequestedReadCommand. -/
  | rrc
  /-- Code 5, TransmittedRequestedValue. -/
  | trv
  /-- Code 6, no name: a state no row of R111 names. -/
  | unused6
  /-- Code 7, no name: a state no row of R111 names. -/
  | unused7
  deriving DecidableEq, Repr

/-- The response the engine hands back for a bus event (R93); code 3 is never produced and has no constructor. -/
inductive BusResp where
  | ack
  | nack
  | last
  deriving DecidableEq, Repr

/-- The error causes (R220). -/
inductive Cause where
  | none
  | busProtocolViolation
  | queueSaturation
  | invalidFirstByte
  | addressingNoise
  | timeoutAbandonment
  deriving DecidableEq, Repr

/-- The trace record of one operation (R40). -/
structure TraceRecord where
  busResp : Option BusResp
  busTx : Option Byte
  writeCall : Option (Byte × Byte)
  readCall : Option (Byte × Byte)
  liveness : Bool
  persistReq : Option Byte
  assigned : Option Byte
  addrOutPulse : Bool
  cause : Cause
  deriving DecidableEq, Repr

/-- Every field absent: what an operation leaves that names no output (R40). -/
def TraceRecord.silent : TraceRecord where
  busResp := Option.none
  busTx := Option.none
  writeCall := Option.none
  readCall := Option.none
  liveness := false
  persistReq := Option.none
  assigned := Option.none
  addrOutPulse := false
  cause := .none

/-- The faults: there is none. No behaviour of the block is treated as a fault, and every operation is total or
refused (93_implementation_defined.md; R221). Safe: nothing is lost, since no step answers with a fault. -/
inductive Fault where
  deriving DecidableEq, Repr

/-- The refusals (R86): a refused word changes no register and produces no output. Each is safe, since the run stops. -/
inductive Refusal where
  /-- An instruction without a meaning; raised by an arm of exec only. No arm raises it. Safe: the run stops. -/
  | notModelled (mnemonic : String)
  /-- R86 (a): a reserved word of R84; raised by step. Safe: the run stops. -/
  | reservedWord (why : Reserved)
  /-- R86 (b), `refuse(TwoInFlight)`: raised by DISP_TAKE with a command in flight (R150). Safe: the run stops. -/
  | twoInFlight
  /-- R86 (c), `refuse(NothingInFlight)`: raised by DISP_EXEC with no command in flight (R153). Safe: the run stops. -/
  | nothingInFlight
  /-- R86 (d), `refuse(ReinitMidTransaction)`: raised by REINIT outside IDLE (R140). Safe: the run stops. -/
  | reinitMidTransaction
  deriving DecidableEq, Repr

/-- The block's registers (R20), then the model's own fields. -/
structure State where
  /-- `state` (R21). -/
  state : BusState
  /-- `cmd_latch` (R22). -/
  cmdLatch : Byte
  /-- `arg_latch` (R23). -/
  argLatch : Byte
  /-- `own_addr` (R24). -/
  ownAddr : BusAddr
  /-- `read_result` (R25). -/
  readResult : Byte
  /-- `q_head` (R26). -/
  qHead : SlotIdx
  /-- `q_tail` (R27). -/
  qTail : SlotIdx
  /-- `Q[0..7]` (R28, R50). -/
  q : Vector Slot 8
  /-- `inflight` (R37). -/
  inflight : Option Slot
  /-- `pulse_count` (R29). -/
  pulseCount : Byte
  /-- `burst_armed` (R30). -/
  burstArmed : Bool
  /-- `burst_ticks` (R31): a counter whose range the parameter `N_BURST` sets. -/
  burstTicks : Nat
  /-- `assign_pending` (R32). -/
  assignPending : Option Byte
  /-- `emit_remaining` (R33). -/
  emitRemaining : EmitCount
  /-- `evt_line` (R34). -/
  evtLine : Bool
  /-- `evt_armed` (R35). -/
  evtArmed : Bool
  /-- `evt_ticks` (R36): a counter whose range the parameter `M_EVT` sets. -/
  evtTicks : Nat
  /-- The parameters of this instance (R7, R39), which no operation writes. The model's own field (log entry 1). -/
  cfg : Config
  /-- The operation words the agents have issued and the block has not yet taken, in the order the arbiter serialized
  them (R60, R229). The model's own field (log entry 2). -/
  issued : List Word
  /-- The trace record of the operation the last step ran, silent when it ran none (R40). The model's own field
  (log entry 3). -/
  trace : TraceRecord
  deriving DecidableEq, Repr

/-- Reset() of R260 for an instance with parameters `c`, the queue slots holding `slots` (unspecified there). -/
def State.resetOf (c : Config) (slots : Vector Slot 8) : State where
  state := .idle
  cmdLatch := 0x00
  argLatch := 0x00
  ownAddr := c.bootAddress
  readResult := 0x00
  qHead := 0
  qTail := 0
  q := slots
  inflight := none
  pulseCount := 0
  burstArmed := false
  burstTicks := 0
  assignPending := none
  emitRemaining := 0
  evtLine := false
  evtArmed := false
  evtTicks := 0
  cfg := c
  issued := []
  trace := .silent

/-- The machine right after reset (R260): the open parameters and the open slot contents, no operation issued. -/
def State.reset : State :=
  State.resetOf Config.platform
    #v[Config.openSlotAtReset 0, Config.openSlotAtReset 1, Config.openSlotAtReset 2, Config.openSlotAtReset 3,
       Config.openSlotAtReset 4, Config.openSlotAtReset 5, Config.openSlotAtReset 6, Config.openSlotAtReset 7]

end Sys2Proof.Machine
end

