-- ==== Sys2Proof/Machine/Operands.lean ====
section
/-! DEFINITION. Operand assembly and the arithmetic the operation rules use (R9, R14): records, queue indices, the
pulse count and its derived values, the device address, the read classification, and the numeric codes. -/

namespace Sys2Proof.Machine

/-- `rec[15:8] = command`, `rec[7:0] = argument` (R51): `cmd ++ arg`. -/
def recordOf (command argument : Byte) : Slot := command ++ argument

/-- `rec[15:8]` (R51). -/
def recCommand (r : Slot) : Byte := r.extractLsb' 8 8

/-- `rec[7:0]` (R51). -/
def recArgument (r : Slot) : Byte := r.extractLsb' 0 8

/-- `inc8(a) = (a + 1) mod 8` (R9). -/
def inc8 (a : SlotIdx) : SlotIdx := BitVec.ofNat 3 ((a.toNat + 1) % 8)

/-- `sat_8(a) = min(a, 255)` (R9). -/
def sat8 (a : Nat) : Byte := BitVec.ofNat 8 (min a 255)

/-- The source's doubled-pulse test, `n != 0 and even(n)` (R174). -/
def validCount (n : Byte) : Bool := n.toNat != 0 && n.toNat % 2 == 0

/-- `idx <- n / 2` (R180). -/
def indexOfCount (n : Byte) : Byte := BitVec.ofNat 8 (n.toNat / 2)

/-- `emit_remaining <- n + 2`, nine bits (R180). -/
def emitOfCount (n : Byte) : EmitCount := BitVec.ofNat 9 (n.toNat + 2)

/-- `DeviceAddress(idx) = ((DEVICE_CLASS << 3) | (idx & 0x7))[6:0]` (R66). -/
def deviceAddress (c : DevClass) (idx : Byte) : BusAddr :=
  BitVec.ofNat 7 ((c.toNat <<< 3) ||| (idx.toNat &&& 0x7))

/-- The read-command list: the prefix of `READ_SET` before its first zero byte (R64). -/
def readList (readSet : Vector Byte 8) : List Byte := readSet.toList.takeWhile (· != 0x00)

/-- `isRead(c)`: `c` is not 0x00 and occurs in the list (R64). -/
def isRead (cfg : Config) (c : Byte) : Bool := c != 0x00 && (readList cfg.readSet).contains c

/-- The three-bit code of an engine state (R21). -/
def BusState.code : BusState → BitVec 3
  | .idle => 0
  | .wrc => 1
  | .rc => 2
  | .rab => 3
  | .rrc => 4
  | .trv => 5
  | .unused6 => 6
  | .unused7 => 7

/-- The engine state with a given three-bit code (R21). -/
def BusState.ofCode (c : BitVec 3) : BusState :=
  match c.toNat with
  | 0 => .idle
  | 1 => .wrc
  | 2 => .rc
  | 3 => .rab
  | 4 => .rrc
  | 5 => .trv
  | 6 => .unused6
  | _ => .unused7

/-- The two-bit code of a response (R93). -/
def BusResp.code : BusResp → BitVec 2
  | .ack => 0
  | .nack => 1
  | .last => 2

/-- The code of an error cause (R220). -/
def Cause.code : Cause → Nat
  | .none => 0
  | .busProtocolViolation => 1
  | .queueSaturation => 2
  | .invalidFirstByte => 3
  | .addressingNoise => 4
  | .timeoutAbandonment => 5

end Sys2Proof.Machine
end

