-- ==== Sys2Proof/Machine/Flags.lean ====
section
/-! DEFINITION. The derived values (R38) and the level outputs (R41): the block has no flag register, and no operation
writes any of these. -/

namespace Sys2Proof.Machine

/-- `q_empty = (q_head == q_tail)` (R38, R52). -/
def State.qEmpty (s : State) : Bool := s.qHead == s.qTail

/-- `q_full = (inc8(q_tail) == q_head)` (R38, R53). -/
def State.qFull (s : State) : Bool := inc8 s.qTail == s.qHead

/-- `q_count = (q_tail - q_head) mod 8`, 0 to 7 (R38). -/
def State.qCount (s : State) : Nat := (s.qTail - s.qHead).toNat

/-- `addr_match`, to the bus peripheral (R41). -/
def State.addrMatch (s : State) : BusAddr := s.ownAddr

/-- `event_line`, to the bus master (R41). -/
def State.eventLine (s : State) : Bool := s.evtLine

/-- `addr_out`: high except during an emitted pulse (R41). -/
def State.addrOut (s : State) : Bool := !s.trace.addrOutPulse

/-- `quiescent`: the block's part of the condition for suspending (R41, R233). -/
def State.quiescent (s : State) : Bool :=
  s.qEmpty && s.inflight.isNone && s.assignPending.isNone && s.emitRemaining == 0

end Sys2Proof.Machine
end

