-- ==== Sys2Proof/Machine/Ops.lean ====
section
/-! DEFINITION. The named operations the meanings share: the slot accesses (R50), the queue primitives (R55, R56), the
release of the event line (R205), the write of the bus address (R140), the end of an operation with its trace record
(R10, R12, R40), and the taking of an issued word. The block has no trap entry and no return (R230, R231): an error
cause is a field of the trace record (R220), so there is no exception to take. -/

namespace Sys2Proof.Machine

/-- `MemRead(i, 2)` (R50). -/
def State.memRead (s : State) (i : SlotIdx) : Slot := s.q[i.toNat]'(by have := i.isLt; omega)

/-- `MemWrite(i, 2, v)` (R50). -/
def State.memWrite (s : State) (i : SlotIdx) (v : Slot) : State :=
  { s with q := s.q.set i.toNat v (by have := i.isLt; omega) }

/-- `Enqueue(rec)` (R55): the slot is written, then `q_tail` advances. -/
def State.enqueue (s : State) (r : Slot) : State := { s.memWrite s.qTail r with qTail := inc8 s.qTail }

/-- `Dequeue()` (R56): the slot is read, then `q_head` advances. -/
def State.dequeue (s : State) : Slot × State := (s.memRead s.qHead, { s with qHead := inc8 s.qHead })

/-- `EvtRelease()` (R205): the line is lowered and its timer stopped. -/
def State.releaseEvt (s : State) : State := { s with evtLine := false, evtArmed := false, evtTicks := 0 }

/-- `Reinit(a)` (R140). -/
def State.setAddr (s : State) (a : BusAddr) : State := { s with ownAddr := a }

/-- `state <- S` (R10). -/
def State.goto (s : State) (b : BusState) : State := { s with state := b }

/-- The end of an operation: its outputs and its cause stand in the trace record (R12, R40). -/
def State.finish (s : State) (t : TraceRecord) : State := { s with trace := t }

/-- The trace record of a bus event that answers `r` and raises `c` (R93, R110, R220). -/
def TraceRecord.response (r : BusResp) (c : Cause) : TraceRecord := { TraceRecord.silent with busResp := some r, cause := c }

/-- A bus event that answers `r`, goes to `b` and raises `c`: the common shape of R111's cells. -/
def State.answer (s : State) (r : BusResp) (b : BusState) (c : Cause) : Host.Outcome State Fault Refusal :=
  .next ((s.goto b).finish (.response r c))

/-- An operation whose condition is false and whose meaning is to do nothing (R87): no register, no output. -/
def State.noEffect (s : State) : Host.Outcome State Fault Refusal := .next (s.finish .silent)

/-- `refuse(reason)` (R10, R86): no meaning, the run is refused. -/
def refuse (r : Refusal) : Host.Outcome State Fault Refusal := .refused r

/-- Issue one operation word ahead of those already issued. -/
def State.issue (s : State) (w : Word) : State := { s with issued := w :: s.issued }

/-- The next issued word and the state without it. -/
def State.fetch (s : State) : Option (Word × State) :=
  match s.issued with
  | [] => none
  | w :: rest => some (w, { s with issued := rest })

/-- No operation is issued: the block waits (R261), and drives no output of an operation. -/
def State.wait (s : State) : State := s.finish .silent

/-- The word a host's number stands for: the bits above `nbits` are 0 and the port has 12 bits. -/
def fetchWordOf (nbits w : Nat) : Word := BitVec.ofNat 12 (w % 2 ^ nbits)

end Sys2Proof.Machine
end

