-- ==== Sys2Proof/Machine/AddressHandshake.lean ====
section
/-! DEFINITION. The auto-address handshake: the pulse detector and the responder (42_address_handshake.md). -/

namespace Sys2Proof.Machine

/-- ADDR_FALL (R170): the count saturates, the burst timer (re)starts. -/
def execAddrFall (s : State) : Host.Outcome State Fault Refusal :=
  .next ({ s with pulseCount := sat8 (s.pulseCount.toNat + 1), burstArmed := true, burstTicks := 0 }.finish .silent)

/-- The burst is complete (R174): the counter is cleared and the timer stopped; a valid count becomes the pending
assignment, any other is noise (R175). -/
def State.completeBurst (s : State) : State :=
  let t := { s with pulseCount := 0, burstArmed := false, burstTicks := 0 }
  if validCount s.pulseCount then { t with assignPending := some s.pulseCount }.finish .silent
  else t.finish { TraceRecord.silent with cause := .addressingNoise }

/-- ADDR_TICK (R174). -/
def execAddrTick (s : State) : Host.Outcome State Fault Refusal :=
  if s.burstArmed = false then s.noEffect
  else if s.burstTicks + 1 < s.cfg.nBurst then .next ({ s with burstTicks := s.burstTicks + 1 }.finish .silent)
  else .next s.completeBurst

/-- The commit of an assignment of `n` pulses (R180). -/
def State.commitAssignment (s : State) (n : Byte) : State :=
  let idx := indexOfCount n
  let addr := deviceAddress s.cfg.deviceClass idx
  { s.setAddr addr with emitRemaining := emitOfCount n, assignPending := none }.finish
    { TraceRecord.silent with persistReq := some (addr.setWidth 8), assigned := some idx }

/-- ADDR_COMMIT (R180): held until the engine is idle. -/
def execAddrCommit (s : State) : Host.Outcome State Fault Refusal :=
  match s.assignPending with
  | none => s.noEffect
  | some n => if s.state = .idle then .next (s.commitAssignment n) else s.noEffect

/-- ADDR_EMIT (R186). -/
def execAddrEmit (s : State) : Host.Outcome State Fault Refusal :=
  if s.emitRemaining = 0 then s.noEffect
  else .next ({ s with emitRemaining := s.emitRemaining - 1 }.finish { TraceRecord.silent with addrOutPulse := true })

end Sys2Proof.Machine
end

