-- ==== Sys2Proof/Machine/BusEngine.lean ====
section
/-! DEFINITION. The bus slave engine: the six bus event classes and REINIT (40_bus_engine.md). -/

namespace Sys2Proof.Machine

/-- BUS_ADDR_RX (R113). -/
def execBusAddrRx (s : State) : Host.Outcome State Fault Refusal :=
  match s.state with
  | .idle =>
    if s.qFull then s.answer .nack .idle .queueSaturation
    else s.answer .ack .wrc .none
  | .wrc | .rc | .rab | .rrc | .trv | .unused6 | .unused7 => s.answer .ack .idle .busProtocolViolation

/-- BUS_DATA_RX in `WRC`: the command byte (R117). -/
def State.receiveCommand (s : State) (d : Byte) : Host.Outcome State Fault Refusal :=
  if d = 0x00 then s.answer .nack .idle .invalidFirstByte
  else { s with cmdLatch := d }.answer .ack .rc .none

/-- BUS_DATA_RX in `RC`: the argument byte (R118). -/
def State.receiveArgument (s : State) (d : Byte) : Host.Outcome State Fault Refusal :=
  if s.qFull then { s with argLatch := d }.answer .nack .idle .queueSaturation
  else ({ s with argLatch := d }.enqueue (recordOf s.cmdLatch d)).answer .ack .rab .none

/-- BUS_DATA_RX (R116): by `state`, R117, R118 or R119. -/
def execBusDataRx (d : Byte) (s : State) : Host.Outcome State Fault Refusal :=
  match s.state with
  | .wrc => s.receiveCommand d
  | .rc => s.receiveArgument d
  | .idle | .rab | .rrc | .trv | .unused6 | .unused7 => s.answer .nack .idle .busProtocolViolation

/-- BUS_STOP (R122). -/
def execBusStop (s : State) : Host.Outcome State Fault Refusal := s.answer .ack .idle .none

/-- BUS_ADDR_TX (R125): load the result, clear it, release the event line, no more bytes. -/
def execBusAddrTx (s : State) : Host.Outcome State Fault Refusal :=
  .next ((({ s with readResult := 0x00 }.releaseEvt).goto .rrc).finish
    { TraceRecord.response .last .none with busTx := some s.readResult })

/-- BUS_DATA_TX (R129). -/
def execBusDataTx (s : State) : Host.Outcome State Fault Refusal :=
  match s.state with
  | .rrc => s.answer .last .trv .none
  | .idle | .wrc | .rc | .rab | .trv | .unused6 | .unused7 => s.answer .ack .idle .busProtocolViolation

/-- BUS_OTHER (R133): the raw status is never read (R134). -/
def execBusOther (_status : Byte) (s : State) : Host.Outcome State Fault Refusal :=
  s.answer .ack .idle .busProtocolViolation

/-- REINIT (R140). -/
def execReinit (a : BusAddr) (s : State) : Host.Outcome State Fault Refusal :=
  if s.state = .idle then .next ((s.setAddr a).finish .silent)
  else refuse .reinitMidTransaction

end Sys2Proof.Machine
end

