-- ==== Sys2Proof/Machine/Dispatcher.lean ====
section
/-! DEFINITION. The dispatcher's consumer port (41_dispatcher.md). -/

namespace Sys2Proof.Machine

/-- DISP_TAKE (R150). -/
def execDispTake (s : State) : Host.Outcome State Fault Refusal :=
  match s.inflight with
  | some _ => refuse .twoInFlight
  | none =>
    if s.qEmpty then s.noEffect
    else
      let (r, t) := s.dequeue
      .next ({ t with inflight := some r }.finish .silent)

/-- The outputs of DISP_EXEC for a read command: the read handler's call and the liveness strobe (R153, R156). -/
def TraceRecord.readHandler (r : Slot) : TraceRecord :=
  { TraceRecord.silent with readCall := some (recCommand r, recArgument r), liveness := true }

/-- The outputs of DISP_EXEC for a write command: the write handler's call and the liveness strobe (R153, R156). -/
def TraceRecord.writeHandler (r : Slot) : TraceRecord :=
  { TraceRecord.silent with writeCall := some (recCommand r, recArgument r), liveness := true }

/-- DISP_EXEC (R153): the answer is a free input (R154), read for a read command only. -/
def execDispExec (answer : Byte) (s : State) : Host.Outcome State Fault Refusal :=
  match s.inflight with
  | none => refuse .nothingInFlight
  | some r =>
    if isRead s.cfg (recCommand r) then
      .next ({ s with readResult := answer, inflight := none }.finish (.readHandler r))
    else
      .next ({ s with inflight := none }.finish (.writeHandler r))

end Sys2Proof.Machine
end

