-- ==== Sys2Proof/Machine/EventLine.lean ====
section
/-! DEFINITION. The event line controller (43_event_line.md). -/

namespace Sys2Proof.Machine

/-- EVT_ASSERT (R200). -/
def execEvtAssert (s : State) : Host.Outcome State Fault Refusal :=
  .next ({ s with evtLine := true, evtArmed := true, evtTicks := 0 }.finish .silent)

/-- EVT_RELEASE (R203). -/
def execEvtRelease (s : State) : Host.Outcome State Fault Refusal := .next (s.releaseEvt.finish .silent)

/-- EVT_TICK (R206). -/
def execEvtTick (s : State) : Host.Outcome State Fault Refusal :=
  if s.evtArmed = false then s.noEffect
  else if s.evtTicks + 1 < s.cfg.mEvt then .next ({ s with evtTicks := s.evtTicks + 1 }.finish .silent)
  else .next (s.releaseEvt.finish { TraceRecord.silent with cause := .timeoutAbandonment })

end Sys2Proof.Machine
end

