-- ==== Sys2Proof/Machine/Dispatch.lean ====
section
/-! DEFINITION. One arm per operation of the map (R82). -/

namespace Sys2Proof.Machine

def exec (i : Instr) (s : State) : Host.Outcome State Fault Refusal :=
  match i with
  | .busAddrRx => Sys2Proof.Machine.execBusAddrRx s
  | .busDataRx d => Sys2Proof.Machine.execBusDataRx d s
  | .busStop => Sys2Proof.Machine.execBusStop s
  | .busAddrTx => Sys2Proof.Machine.execBusAddrTx s
  | .busDataTx => Sys2Proof.Machine.execBusDataTx s
  | .busOther status => Sys2Proof.Machine.execBusOther status s
  | .reinit a => Sys2Proof.Machine.execReinit a s
  | .dispTake => Sys2Proof.Machine.execDispTake s
  | .dispExec r => Sys2Proof.Machine.execDispExec r s
  | .addrFall => Sys2Proof.Machine.execAddrFall s
  | .addrTick => Sys2Proof.Machine.execAddrTick s
  | .addrCommit => Sys2Proof.Machine.execAddrCommit s
  | .addrEmit => Sys2Proof.Machine.execAddrEmit s
  | .evtAssert => Sys2Proof.Machine.execEvtAssert s
  | .evtRelease => Sys2Proof.Machine.execEvtRelease s
  | .evtTick => Sys2Proof.Machine.execEvtTick s

end Sys2Proof.Machine
end

