-- ==== Sys2Proof/Machine/Step.lean ====
section
/-! DEFINITION. One step: the next issued operation word is taken, decoded and run as one atomic transaction (R12, R60);
a reserved word is refused (R86); with none issued the block waits (R261). -/

namespace Sys2Proof.Machine

def step (s : State) : Host.Outcome State Fault Refusal :=
  match s.fetch with
  | none => .next s.wait
  | some (w, t) =>
    match decode w with
    | .op i => exec i t
    | .reserved why => refuse (.reservedWord why)

/-- The word is issued ahead of every word already issued, so that the next step runs it (log entry 4). -/
def State.withFetchWord (s : State) (nbits w : Nat) : State := s.issue (fetchWordOf nbits w)

end Sys2Proof.Machine
end

