-- ==== Sys2Proof/Machine/Agents.lean ====
section
/-! DEFINITION. Who issues which operation (R13, R225), and in which context (R232). -/

namespace Sys2Proof.Machine

/-- The agent that issues the operation (R13). -/
def agentOf : Instr → Agent
  | .busAddrRx | .busDataRx _ | .busStop | .busAddrTx | .busDataTx | .busOther _ => .busPeripheral
  | .addrFall => .edgeDetector
  | .addrTick => .burstTimer
  | .evtTick => .evtTimer
  | .dispTake | .dispExec _ | .reinit _ | .addrCommit | .addrEmit | .evtAssert | .evtRelease => .cooperativeLoop

/-- The context of an agent (R232). -/
def contextOf : Agent → Context
  | .busPeripheral | .edgeDetector | .burstTimer | .evtTimer => .interrupt
  | .cooperativeLoop => .cooperative

/-- `order` is one of the orders in which the arbiter may serialize what the agents issue: within one agent the issue
order is kept, and nothing else is fixed (R229). -/
def Serializes (issuedBy : Agent → List Instr) (order : List Instr) : Prop :=
  ∀ a, order.filter (fun i => agentOf i == a) = issuedBy a

end Sys2Proof.Machine
end

