-- ==== Sys2Proof/Machine/Registers.lean ====
section
/-! DEFINITION. The registers by name (R20) and the access matrix (R42): which operation may write and which may read
which register. The slots of the queue count one by one. -/

namespace Sys2Proof.Machine

/-- The registers of R20, the queue storage slot by slot (R50). -/
inductive Reg where
  | state
  | cmdLatch
  | argLatch
  | ownAddr
  | readResult
  | qHead
  | qTail
  | slot (i : SlotIdx)
  | inflight
  | pulseCount
  | burstArmed
  | burstTicks
  | assignPending
  | emitRemaining
  | evtLine
  | evtArmed
  | evtTicks
  deriving DecidableEq, Repr

/-- A register's value as a number; `none` is the absent form of an optional register. -/
def Reg.value (r : Reg) (s : State) : Option Nat :=
  match r with
  | .state => some s.state.code.toNat
  | .cmdLatch => some s.cmdLatch.toNat
  | .argLatch => some s.argLatch.toNat
  | .ownAddr => some s.ownAddr.toNat
  | .readResult => some s.readResult.toNat
  | .qHead => some s.qHead.toNat
  | .qTail => some s.qTail.toNat
  | .slot i => some (s.memRead i).toNat
  | .inflight => s.inflight.map (·.toNat)
  | .pulseCount => some s.pulseCount.toNat
  | .burstArmed => some s.burstArmed.toNat
  | .burstTicks => some s.burstTicks
  | .assignPending => s.assignPending.map (·.toNat)
  | .emitRemaining => some s.emitRemaining.toNat
  | .evtLine => some s.evtLine.toNat
  | .evtArmed => some s.evtArmed.toNat
  | .evtTicks => some s.evtTicks

/-- The register is a slot of the queue storage: the row `Q[]` of R42. -/
def Reg.isSlot : Reg → Bool
  | .slot _ => true
  | _ => false

/-- The registers the operation may write: the W marks of R42, and `evt_ticks` for BUS_ADDR_TX and EVT_RELEASE, where R42
has no mark and the operation rules that govern (R125, R203, R205) write it. -/
def mayWrite (i : Instr) (r : Reg) : Bool :=
  match i with
  | .busAddrRx => r == .state
  | .busDataRx _ => r == .state || r == .cmdLatch || r == .argLatch || r == .qTail || r.isSlot
  | .busStop => r == .state
  | .busAddrTx => r == .state || r == .readResult || r == .evtLine || r == .evtArmed || r == .evtTicks
  | .busDataTx => r == .state
  | .busOther _ => r == .state
  | .reinit _ => r == .ownAddr
  | .dispTake => r == .qHead || r == .inflight
  | .dispExec _ => r == .readResult || r == .inflight
  | .addrFall => r == .pulseCount || r == .burstArmed || r == .burstTicks
  | .addrTick => r == .pulseCount || r == .burstArmed || r == .burstTicks || r == .assignPending
  | .addrCommit => r == .ownAddr || r == .assignPending || r == .emitRemaining
  | .addrEmit => r == .emitRemaining
  | .evtAssert => r == .evtLine || r == .evtArmed || r == .evtTicks
  | .evtRelease => r == .evtLine || r == .evtArmed || r == .evtTicks
  | .evtTick => r == .evtLine || r == .evtArmed || r == .evtTicks

/-- The R marks of R42: the registers the operation may read. -/
def mayRead (i : Instr) (r : Reg) : Bool :=
  match i with
  | .busAddrRx => r == .state || r == .qHead || r == .qTail
  | .busDataRx _ => r == .state || r == .cmdLatch || r == .qHead || r == .qTail
  | .busStop => false
  | .busAddrTx => r == .readResult
  | .busDataTx => r == .state
  | .busOther _ => false
  | .reinit _ => r == .state
  | .dispTake => r == .qHead || r == .qTail || r.isSlot || r == .inflight
  | .dispExec _ => r == .inflight
  | .addrFall => r == .pulseCount
  | .addrTick => r == .pulseCount || r == .burstArmed || r == .burstTicks
  | .addrCommit => r == .state || r == .assignPending
  | .addrEmit => r == .emitRemaining
  | .evtAssert => false
  | .evtRelease => false
  | .evtTick => r == .evtLine || r == .evtArmed || r == .evtTicks

end Sys2Proof.Machine
end

