-- ==== Sys2Proof/Machine/Text.lean ====
section
/-! DEFINITION. The textual form of a trace (R88) and the pseudo-operations (R89): a line as its name and its operand, how
it is written out, and how a written line is read, comments and character codes included. -/

namespace Sys2Proof.Machine

/-- The text form of an operation (R88). -/
def textOf : Instr → TraceLine
  | .busAddrRx => ⟨"bus.addr_rx", none⟩
  | .busDataRx d => ⟨"bus.data_rx", some d⟩
  | .busStop => ⟨"bus.stop", none⟩
  | .busAddrTx => ⟨"bus.addr_tx", none⟩
  | .busDataTx => ⟨"bus.data_tx", none⟩
  | .busOther s => ⟨"bus.other", some s⟩
  | .reinit a => ⟨"reinit", some (a.setWidth 8)⟩
  | .dispTake => ⟨"disp.take", none⟩
  | .dispExec r => ⟨"disp.exec", some r⟩
  | .addrFall => ⟨"addr.fall", none⟩
  | .addrTick => ⟨"addr.tick", none⟩
  | .addrCommit => ⟨"addr.commit", none⟩
  | .addrEmit => ⟨"addr.emit", none⟩
  | .evtAssert => ⟨"evt.assert", none⟩
  | .evtRelease => ⟨"evt.release", none⟩
  | .evtTick => ⟨"evt.tick", none⟩

/-- The operations that take no operand, by name (R88). -/
def plainOf (name : String) : Option Instr :=
  if name = "bus.addr_rx" then some .busAddrRx
  else if name = "bus.stop" then some .busStop
  else if name = "bus.addr_tx" then some .busAddrTx
  else if name = "bus.data_tx" then some .busDataTx
  else if name = "disp.take" then some .dispTake
  else if name = "disp.exec" then some (.dispExec 0x00)
  else if name = "addr.fall" then some .addrFall
  else if name = "addr.tick" then some .addrTick
  else if name = "addr.commit" then some .addrCommit
  else if name = "addr.emit" then some .addrEmit
  else if name = "evt.assert" then some .evtAssert
  else if name = "evt.release" then some .evtRelease
  else if name = "evt.tick" then some .evtTick
  else none

/-- The operations that take an operand, by name; `reinit` takes an address up to 0x7F (R88). -/
def withOperand (name : String) (d : Byte) : Option Instr :=
  if name = "bus.data_rx" then some (.busDataRx d)
  else if name = "bus.other" then some (.busOther d)
  else if name = "disp.exec" then some (.dispExec d)
  else if name = "reinit" then if d.getLsbD 7 then none else some (.reinit (d.extractLsb' 0 7))
  else none

/-- Read a line; `disp.exec` alone means `disp.exec 0x00` (R88). -/
def assemble (l : TraceLine) : Option Instr :=
  match l.operand with
  | none => plainOf l.name
  | some d => withOperand l.name d

/-- One hexadecimal digit, capitals as R88 writes them. -/
def hexDigit (n : BitVec 4) : String :=
  match n.toNat with
  | 0 => "0" | 1 => "1" | 2 => "2" | 3 => "3" | 4 => "4" | 5 => "5" | 6 => "6" | 7 => "7"
  | 8 => "8" | 9 => "9" | 10 => "A" | 11 => "B" | 12 => "C" | 13 => "D" | 14 => "E" | _ => "F"

/-- A byte in hexadecimal, `0xHL` (R8, R88). -/
def hexByte (d : Byte) : String := "0x" ++ hexDigit (d.extractLsb' 4 4) ++ hexDigit (d.extractLsb' 0 4)

/-- The line as it is written (R88). -/
def renderLine (l : TraceLine) : String :=
  match l.operand with
  | none => l.name
  | some d => l.name ++ " " ++ hexByte d

/-- The value of a hexadecimal digit. Small letters are read as capitals are (log entry 11). -/
def hexValue (c : Char) : Option (BitVec 4) :=
  let n := c.toNat
  if 48 ≤ n ∧ n ≤ 57 then some (BitVec.ofNat 4 (n - 48))
  else if 65 ≤ n ∧ n ≤ 70 then some (BitVec.ofNat 4 (n - 55))
  else if 97 ≤ n ∧ n ≤ 102 then some (BitVec.ofNat 4 (n - 87))
  else none

/-- A byte operand: `0xHL`, or a character in quotes, which means its code (R88). -/
def readByte : List Char → Option Byte
  | ['0', 'x', h, l] => do some ((← hexValue h) ++ (← hexValue l))
  | ['\'', c, '\''] => if c.toNat < 128 then some (BitVec.ofNat 8 c.toNat) else none
  | _ => none

/-- Cut a text at its blanks and commas. -/
def cutBlanks : List Char → List (List Char)
  | [] => [[]]
  | c :: cs =>
    match cutBlanks cs with
    | [] => [[c]]
    | w :: ws => if c = ' ' ∨ c = ',' then [] :: w :: ws else (c :: w) :: ws

/-- The parts of a line; a comment starts with `;` (R88). -/
def lineParts (l : String) : List (List Char) :=
  (cutBlanks (l.toList.takeWhile (· ≠ ';'))).filter (!·.isEmpty)

/-- Read a written line: a name, then the operand if there is one (R88). -/
def readLine (l : String) : Option TraceLine :=
  match lineParts l with
  | [n] => some ⟨String.ofList n, none⟩
  | [n, o] => (readByte o).map fun d => ⟨String.ofList n, some d⟩
  | _ => none

/-- The operation a written line stands for (R88). -/
def assembleText (l : String) : Option Instr := (readLine l).bind assemble

/-- The operations of a written trace, one a line, lines of comment and blank lines left out (R88). -/
def readTrace (ls : List String) : Option (List Instr) := (ls.filter fun l => !(lineParts l).isEmpty).mapM assembleText

/-- A count in decimal digits, as R89 and 95_test_vectors.md write `addr.burst K`. -/
def readCount (cs : List Char) : Option Nat :=
  if cs.isEmpty then none
  else cs.foldl (fun n c =>
    n.bind fun n => if 48 ≤ c.toNat ∧ c.toNat ≤ 57 then some (10 * n + (c.toNat - 48)) else none) (some 0)

/-- Read a pseudo-operation (R89). -/
def readPseudo (l : String) : Option Pseudo :=
  match lineParts l with
  | [n] =>
    if n = "bus.read".toList then some .busRead
    else if n = "addr.quiet".toList then some .addrQuiet
    else if n = "addr.emit_all".toList then some .addrEmitAll
    else if n = "evt.timeout".toList then some .evtTimeout
    else none
  | [n, o] =>
    if n = "disp.one".toList then (readByte o).map .dispOne
    else if n = "addr.burst".toList then (readCount o).map .addrBurst
    else none
  | [n, c, a] =>
    if n = "bus.write".toList then do some (.busWrite (← readByte c) (← readByte a)) else none
  | _ => none

/-- The words a pseudo-operation stands for, in order; the two that repeat until something is used up take the count
from the state at their start (R89). -/
def expand (p : Pseudo) (s : State) : List Instr :=
  match p with
  | .busWrite c a => [.busAddrRx, .busDataRx c, .busDataRx a, .busStop]
  | .busRead => [.busAddrTx, .busOther 0x00]
  | .dispOne r => [.dispTake, .dispExec r]
  | .addrBurst k => List.replicate k .addrFall
  | .addrQuiet => List.replicate s.cfg.nBurst .addrTick
  | .addrEmitAll => List.replicate s.emitRemaining.toNat .addrEmit
  | .evtTimeout => List.replicate s.cfg.mEvt .evtTick

end Sys2Proof.Machine
end

