-- ==== Sys2Proof/Safety.lean ====
section
/-! DEFINITION. What claims are stated in: the queue as a list, the invariant of the reachable states, runs of
operations with their trace records, and the fairness premises (R281). -/

namespace Sys2Proof.Machine

/-- The records in the queue, oldest first: `q_count` slots from `q_head` on (R38, R57). -/
def queued (s : State) : List Slot := (List.range s.qCount).map fun k => s.memRead (s.qHead + BitVec.ofNat 3 k)

/-- Dequeued or not, the records no handler has had yet, oldest first. -/
def outstanding (s : State) : List Slot := s.inflight.toList ++ queued s

/-- The invariant of the reachable states: R72 (1, 2), R145 (3, 4), R209 (3) and the ranges of R30 to R36. -/
structure Inv (s : State) : Prop where
  /-- The parameters are in their ranges (R7). -/
  cfg_wf : s.cfg.wf = true
  /-- R145 (4): the codes 6 and 7 are not reached. -/
  state_named : s.state ≠ .unused6 ∧ s.state ≠ .unused7
  /-- R145 (3): room is kept for the command being received. -/
  write_room : s.state = .wrc ∨ s.state = .rc → s.qFull = false
  /-- R117: a latched command byte is not 0x00. -/
  command_latched : s.state = .rc → s.cmdLatch ≠ 0x00
  /-- R72 (2): no queued record has the command byte 0x00. -/
  queued_nonzero : ∀ r ∈ queued s, recCommand r ≠ 0x00
  /-- R72 (2), carried to the record taken from the queue. -/
  inflight_nonzero : ∀ r ∈ s.inflight, recCommand r ≠ 0x00
  /-- R30: a stopped burst timer has no count. -/
  burst_stopped : s.burstArmed = false → s.pulseCount = 0 ∧ s.burstTicks = 0
  /-- R176 (c): the timer is armed only by an edge. -/
  burst_counted : s.burstArmed = true → s.pulseCount ≠ 0
  /-- R31: 0 to `N_BURST` - 1. -/
  burst_range : s.burstTicks < s.cfg.nBurst
  /-- R32: a pending count is even and not zero. -/
  pending_valid : ∀ n ∈ s.assignPending, validCount n = true
  /-- R33: 0 to 256. -/
  emit_range : s.emitRemaining.toNat ≤ 256
  /-- R35 and R209 (3): the line is asserted exactly while its timer runs. -/
  line_timed : s.evtLine = s.evtArmed
  /-- A stopped event timer stands at 0 (R205). -/
  evt_stopped : s.evtArmed = false → s.evtTicks = 0
  /-- R36: 0 to `M_EVT` - 1. -/
  evt_range : s.evtTicks < s.cfg.mEvt

/-- Run operations in order (R60); the trace record of each, and the last state, or nothing if one is refused. -/
def runOps : List Instr → State → Option (List TraceRecord × State)
  | [], s => some ([], s)
  | i :: is, s =>
    match exec i s with
    | .next t => (runOps is t).map fun p => (t.trace :: p.1, p.2)
    | .fault _ => none
    | .refused _ => none

/-- The record an operation hands to a handler, from its trace record (R40, R51). -/
def handlerCall (t : TraceRecord) : Option Slot := (t.readCall <|> t.writeCall).map fun p => recordOf p.1 p.2

/-- The record an operation puts into the queue, if it does (R118). -/
def accepted (i : Instr) (s : State) : Option Slot :=
  match i with
  | .busDataRx d => if s.state = .rc ∧ s.qFull = false then some (recordOf s.cmdLatch d) else none
  | _ => none

/-- The records a run of operations puts into the queue, in order. -/
def acceptedIn : List Instr → State → List Slot
  | [], _ => []
  | i :: is, s =>
    match exec i s with
    | .next t => (accepted i s).toList ++ acceptedIn is t
    | .fault _ => []
    | .refused _ => []

/-- How many pulses a trace has on `addr_out` (R186). -/
def pulsesIn (ts : List TraceRecord) : Nat := (ts.filter (·.addrOutPulse)).length

/-- The bus events among operations. -/
def busEvents (is : List Instr) : List Instr := is.filter fun i => agentOf i == .busPeripheral

/-- An unending run: no operation is refused. -/
def IsRun (ops : Nat → Instr) (run : Nat → State) : Prop := ∀ n, exec (ops n) (run n) = .next (run (n + 1))

/-- F1 of R281: while there is something to dispatch, a dispatch operation eventually comes. -/
def FairDispatch (ops : Nat → Instr) (run : Nat → State) : Prop :=
  ∀ n, ((run n).qEmpty = false ∨ (run n).inflight ≠ none) →
    ∃ m, n ≤ m ∧ (ops m = .dispTake ∨ ∃ r, ops m = .dispExec r)

/-- F2 of R281: while an assignment is pending and the engine idle, a commit eventually comes. -/
def FairCommit (ops : Nat → Instr) (run : Nat → State) : Prop :=
  ∀ n, (run n).assignPending ≠ none → (run n).state = .idle → ∃ m, n ≤ m ∧ ops m = .addrCommit

/-- F3 of R281: while pulses remain, an emission eventually comes. -/
def FairEmit (ops : Nat → Instr) (run : Nat → State) : Prop :=
  ∀ n, 0 < (run n).emitRemaining.toNat → ∃ m, n ≤ m ∧ ops m = .addrEmit

/-- F4 of R281: each tick agent ticks infinitely often. -/
def FairTicks (ops : Nat → Instr) : Prop :=
  ∀ n, (∃ m, n ≤ m ∧ ops m = .addrTick) ∧ (∃ m, n ≤ m ∧ ops m = .evtTick)

end Sys2Proof.Machine
end

