-- ==== Sys2Proof/Certificates/Slice0/Obligations.lean ====
section
/-! DEFINITION. The statements for the provers. Each follows a numbered rule of the spec, or is derived from the sections
its entry in OBLIGATIONS.json cites. -/

open Sys2Proof Sys2Proof.Machine

-- ---------------------------------------------------------------- reset, decoding, stepping

/-- R260: Reset() for every parameter choice and all slot contents, the levels that follow, and the machine's reset
state as one such instance. -/
def Obligations.ResetSetsEveryRegister : Prop :=
  ∀ (c : Config) (slots : Vector Slot 8), ∀ s, s = State.resetOf c slots →
    s.state = .idle ∧ s.cmdLatch = 0x00 ∧ s.argLatch = 0x00 ∧ s.ownAddr = c.bootAddress ∧ s.readResult = 0x00 ∧
    s.qHead = 0 ∧ s.qTail = 0 ∧ s.q = slots ∧ s.inflight = none ∧ s.pulseCount = 0 ∧ s.burstArmed = false ∧
    s.burstTicks = 0 ∧ s.assignPending = none ∧ s.emitRemaining = 0 ∧ s.evtLine = false ∧ s.evtArmed = false ∧
    s.evtTicks = 0 ∧ s.qEmpty = true ∧ s.addrOut = true ∧ s.quiescent = true ∧
    (∃ c' slots', State.reset = State.resetOf c' slots' ∧ c'.wf = true ∧
      c'.bootAddress = Config.bootAddressOf Config.openPersistedByte)

/-- R85 with R84: a word decodes to an operation exactly when its fields are those of one, and to which one. -/
def Obligations.DecodeFollowsFields : Prop :=
  ∀ w : Word, ∀ op d, op = w.extractLsb' 8 4 → d = w.extractLsb' 0 8 →
    (op = 0x6 ∧ d.getLsbD 7 = true → decode w = .reserved (.addressBitSeven d)) ∧
    (op = 0x6 ∧ d.getLsbD 7 = false → decode w = .op (.reinit (d.extractLsb' 0 7))) ∧
    (op = 0x1 → decode w = .op (.busDataRx d)) ∧
    (op = 0x5 → decode w = .op (.busOther d)) ∧
    (op = 0x8 → decode w = .op (.dispExec d)) ∧
    (op ≠ 0x6 ∧ op ≠ 0x1 ∧ op ≠ 0x5 ∧ op ≠ 0x8 ∧ d ≠ 0x00 → decode w = .reserved (.operandNotZero op d)) ∧
    (d = 0x00 →
      (op = 0x0 → decode w = .op .busAddrRx) ∧ (op = 0x2 → decode w = .op .busStop) ∧
      (op = 0x3 → decode w = .op .busAddrTx) ∧ (op = 0x4 → decode w = .op .busDataTx) ∧
      (op = 0x7 → decode w = .op .dispTake) ∧ (op = 0x9 → decode w = .op .addrFall) ∧
      (op = 0xA → decode w = .op .addrTick) ∧ (op = 0xB → decode w = .op .addrCommit) ∧
      (op = 0xC → decode w = .op .addrEmit) ∧ (op = 0xD → decode w = .op .evtAssert) ∧
      (op = 0xE → decode w = .op .evtRelease) ∧ (op = 0xF → decode w = .op .evtTick))

/-- Decode and encode agree on every operation and every legal word: each operation has exactly one word. -/
def Obligations.DecodeEncodeAgree : Prop :=
  (∀ i, decode (encode i) = .op i) ∧ (∀ w i, decode w = .op i → encode i = w)

/-- The decoder against the map of masks and patterns: a decoded word is in its mnemonic's row and in no other, a
reserved word is in no row. -/
def Obligations.DecodeFollowsOpTable : Prop :=
  ∀ w : Word,
    (∀ i, decode w = .op i → ∀ row ∈ opTable, row.accepts w = true ↔ row.mnemonic = i.mnemonic) ∧
    (∀ e, decode w = .reserved e → ∀ row ∈ opTable, row.accepts w = false)

/-- The words of R88's table, each with a sample operand where it takes one. -/
def Obligations.SampleWordsDecode : Prop :=
  decode 0x000 = .op .busAddrRx ∧ decode 0x1BB = .op (.busDataRx 0xBB) ∧ decode 0x200 = .op .busStop ∧
  decode 0x300 = .op .busAddrTx ∧ decode 0x400 = .op .busDataTx ∧ decode 0x5C0 = .op (.busOther 0xC0) ∧
  decode 0x62B = .op (.reinit 0x2B) ∧ decode 0x700 = .op .dispTake ∧ decode 0x8FF = .op (.dispExec 0xFF) ∧
  decode 0x900 = .op .addrFall ∧ decode 0xA00 = .op .addrTick ∧ decode 0xB00 = .op .addrCommit ∧
  decode 0xC00 = .op .addrEmit ∧ decode 0xD00 = .op .evtAssert ∧ decode 0xE00 = .op .evtRelease ∧
  decode 0xF00 = .op .evtTick

/-- R84: which words are reserved, and how many. -/
def Obligations.ReservedWords : Prop :=
  ∀ noOperand : List (BitVec 4), noOperand = [0x0, 0x2, 0x3, 0x4, 0x7, 0x9, 0xA, 0xB, 0xC, 0xD, 0xE, 0xF] →
    (∀ w : Word, (decode w).toOption = none ↔
      (w.extractLsb' 8 4 ∈ noOperand ∧ w.extractLsb' 0 8 ≠ 0x00) ∨
      (w.extractLsb' 8 4 = 0x6 ∧ (w.extractLsb' 0 8).getLsbD 7 = true)) ∧
    (∀ op ∈ noOperand, ((List.finRange 256).countP fun d => (decode (op ++ BitVec.ofFin (w := 8) d)).toOption.isNone) = 255) ∧
    (∀ w : Word, w.extractLsb' 8 4 = 0x6 → ((decode w).toOption = none ↔ 0x680 ≤ w ∧ w ≤ 0x6FF)) ∧
    ((List.finRange 4096).countP fun w => (decode (BitVec.ofFin w)).toOption.isNone) = 3188 ∧
    ((List.finRange 4096).countP fun w => (decode (BitVec.ofFin w)).toOption.isSome) = 908

/-- The numbers the spec gives the engine states (R21), the responses (R93) and the causes (R220); a state's code reads
back as the state. -/
def Obligations.CodesFollowTables : Prop :=
  [BusState.idle, .wrc, .rc, .rab, .rrc, .trv].map BusState.code = [0, 1, 2, 3, 4, 5] ∧
  (∀ b : BusState, BusState.ofCode b.code = b) ∧ (∀ c : BitVec 3, (BusState.ofCode c).code = c) ∧
  [BusResp.ack, .nack, .last].map BusResp.code = [0, 1, 2] ∧
  [Cause.none, .busProtocolViolation, .queueSaturation, .invalidFirstByte, .addressingNoise,
    .timeoutAbandonment].map Cause.code = [0, 1, 2, 3, 4, 5]

/-- A step takes the next issued word and runs the operation it decodes to, or refuses a reserved word (R86 (a)); the
rest of the issued words stay. With none issued it waits (log entry 2: the model's choice, after R261). -/
def Obligations.StepRunsTheIssuedWord : Prop :=
  ∀ (s : State) (w : Word) (rest : List Word),
    (s.issued = w :: rest → ∀ i, decode w = .op i → step s = exec i { s with issued := rest }) ∧
    (s.issued = w :: rest → ∀ e, decode w = .reserved e → step s = .refused (.reservedWord e)) ∧
    (s.issued = [] → step s = .next { s with trace := .silent })

/-- The word the host places is the one the next step runs, on the state it was placed in (log entry 4: the model's
choice of where a word is placed). -/
def Obligations.PlacedWordRunsNext : Prop :=
  ∀ (s : State) (nbits w : Nat) (i : Instr), decodeTableWord nbits w = some i →
    step (s.withFetchWord nbits w) = exec i s

/-- Stepping through issued words is running their operations in order (R60): the machine's run and `runOps` agree. -/
def Obligations.IssuedWordsRunInOrder : Prop :=
  ∀ (is : List Instr) (rest : List Word) (s t : State), s.issued = is.map encode ++ rest →
    (Host.Core.run Sys2Proof.core is.length s = .next t ↔ ∃ ts, runOps is { s with issued := rest } = some (ts, t))

-- ---------------------------------------------------------------- the bus engine

/-- R113: BUS_ADDR_RX in every state, its word, and that nothing but `state` and the trace changes. -/
def Obligations.BusAddrRxResult : Prop :=
  encode .busAddrRx = 0x000 ∧ ∀ s : State,
    (s.state = .idle → s.qFull = true → exec .busAddrRx s = .next { s with
      state := .idle, trace := { TraceRecord.silent with busResp := some .nack, cause := .queueSaturation } }) ∧
    (s.state = .idle → s.qFull = false → exec .busAddrRx s = .next { s with
      state := .wrc, trace := { TraceRecord.silent with busResp := some .ack } }) ∧
    (s.state ≠ .idle → exec .busAddrRx s = .next { s with
      state := .idle, trace := { TraceRecord.silent with busResp := some .ack, cause := .busProtocolViolation } })

/-- R117: the command byte. -/
def Obligations.CommandByteResult : Prop :=
  ∀ (s : State) (d : Byte), s.state = .wrc →
    (d = 0x00 → exec (.busDataRx d) s = .next { s with
      state := .idle, trace := { TraceRecord.silent with busResp := some .nack, cause := .invalidFirstByte } }) ∧
    (d ≠ 0x00 → exec (.busDataRx d) s = .next { s with
      state := .rc, cmdLatch := d, trace := { TraceRecord.silent with busResp := some .ack } })

/-- R118: the argument byte, with room (the record goes to the tail slot, every other slot reads as before, every
register not named stays) and without. -/
def Obligations.ArgumentByteResult : Prop :=
  ∀ (s : State) (d : Byte), s.state = .rc →
    (s.qFull = true → exec (.busDataRx d) s = .next { s with
      state := .idle, argLatch := d,
      trace := { TraceRecord.silent with busResp := some .nack, cause := .queueSaturation } }) ∧
    (s.qFull = false → ∃ t, exec (.busDataRx d) s = .next t ∧
      t.memRead s.qTail = recordOf s.cmdLatch d ∧ (∀ i, i ≠ s.qTail → t.memRead i = s.memRead i) ∧
      t = { s with state := .rab, argLatch := d, qTail := s.qTail + 1, q := t.q,
                   trace := { TraceRecord.silent with busResp := some .ack } })

/-- R119: a data byte the engine does not expect. -/
def Obligations.UnexpectedByteResult : Prop :=
  ∀ (s : State) (d : Byte), s.state ≠ .wrc → s.state ≠ .rc →
    exec (.busDataRx d) s = .next { s with
      state := .idle, trace := { TraceRecord.silent with busResp := some .nack, cause := .busProtocolViolation } }

/-- R122: BUS_STOP. -/
def Obligations.BusStopResult : Prop :=
  encode .busStop = 0x200 ∧ ∀ s : State, exec .busStop s = .next { s with
    state := .idle, trace := { TraceRecord.silent with busResp := some .ack } }

/-- R125: BUS_ADDR_TX loads `read_result`, clears it, releases the event line and answers LAST, in every state. -/
def Obligations.BusAddrTxResult : Prop :=
  encode .busAddrTx = 0x300 ∧ ∀ s : State, exec .busAddrTx s = .next { s with
    state := .rrc, readResult := 0x00, evtLine := false, evtArmed := false, evtTicks := 0,
    trace := { TraceRecord.silent with busResp := some .last, busTx := some s.readResult } }

/-- R129: BUS_DATA_TX loads no byte. -/
def Obligations.BusDataTxResult : Prop :=
  encode .busDataTx = 0x400 ∧ ∀ s : State,
    (s.state = .rrc → exec .busDataTx s = .next { s with
      state := .trv, trace := { TraceRecord.silent with busResp := some .last } }) ∧
    (s.state ≠ .rrc → exec .busDataTx s = .next { s with
      state := .idle, trace := { TraceRecord.silent with busResp := some .ack, cause := .busProtocolViolation } })

/-- R133: BUS_OTHER, whatever the raw status. -/
def Obligations.BusOtherResult : Prop :=
  ∀ (s : State) (status : Byte), encode (.busOther status) = 0x500 + status.setWidth 12 ∧
    exec (.busOther status) s = .next { s with
      state := .idle, trace := { TraceRecord.silent with busResp := some .ack, cause := .busProtocolViolation } }

/-- R140: REINIT writes `own_addr` in IDLE and is refused in every other state; the loop issues it. -/
def Obligations.ReinitResult : Prop :=
  ∀ (s : State) (a : BusAddr), encode (.reinit a) = 0x600 + a.setWidth 12 ∧
    agentOf (.reinit a) = .cooperativeLoop ∧
    (s.state = .idle → exec (.reinit a) s = .next { s with ownAddr := a, trace := .silent }) ∧
    (s.state ≠ .idle → exec (.reinit a) s = .refused .reinitMidTransaction)

-- ---------------------------------------------------------------- the dispatcher

/-- R150: DISP_TAKE in its three cases. -/
def Obligations.DispTakeResult : Prop :=
  encode .dispTake = 0x700 ∧ ∀ s : State,
    (s.inflight ≠ none → exec .dispTake s = .refused .twoInFlight) ∧
    (s.inflight = none → s.qHead = s.qTail → exec .dispTake s = .next { s with trace := .silent }) ∧
    (s.inflight = none → s.qHead ≠ s.qTail → exec .dispTake s = .next { s with
      inflight := some (s.memRead s.qHead), qHead := s.qHead + 1, trace := .silent })

/-- R153: DISP_EXEC for a read command, for a write command, and with nothing in flight. -/
def Obligations.DispExecResult : Prop :=
  ∀ (s : State) (r : Byte), encode (.dispExec r) = 0x800 + r.setWidth 12 ∧
    (s.inflight = none → exec (.dispExec r) s = .refused .nothingInFlight) ∧
    (∀ c a, s.inflight = some (c ++ a : Slot) → isRead s.cfg c = true → exec (.dispExec r) s = .next { s with
      readResult := r, inflight := none,
      trace := { TraceRecord.silent with readCall := some (c, a), liveness := true } }) ∧
    (∀ c a, s.inflight = some (c ++ a : Slot) → isRead s.cfg c = false → exec (.dispExec r) s = .next { s with
      inflight := none, trace := { TraceRecord.silent with writeCall := some (c, a), liveness := true } })

/-- R64: which command bytes are read commands, from the slots of `READ_SET` one by one; and no operation but DISP_EXEC
looks at `READ_SET`. -/
def Obligations.ReadClassification : Prop :=
  (∀ (cfg : Config) (c : Byte), isRead cfg c = true ↔
    c ≠ 0x00 ∧ ∃ i : Fin 8, cfg.readSet[i] = c ∧ ∀ j : Fin 8, j < i → cfg.readSet[j] ≠ 0x00) ∧
  ∀ (i : Instr) (s : State) (readSet : Vector Byte 8), (∀ r, i ≠ .dispExec r) →
    (∀ t, exec i s = .next t → exec i { s with cfg := { s.cfg with readSet := readSet } } =
      .next { t with cfg := { t.cfg with readSet := readSet } }) ∧
    (∀ e, exec i s = .refused e → exec i { s with cfg := { s.cfg with readSet := readSet } } = .refused e)

-- ---------------------------------------------------------------- the handshake

/-- R170: ADDR_FALL. -/
def Obligations.AddrFallResult : Prop :=
  encode .addrFall = 0x900 ∧ ∀ s : State,
    (s.pulseCount ≠ 255 → exec .addrFall s = .next { s with
      pulseCount := s.pulseCount + 1, burstArmed := true, burstTicks := 0, trace := .silent }) ∧
    (s.pulseCount = 255 → exec .addrFall s = .next { s with
      burstArmed := true, burstTicks := 0, trace := .silent })

/-- R174: ADDR_TICK with the timer stopped, before completion, and at completion with a valid count and with noise. -/
def Obligations.AddrTickResult : Prop :=
  encode .addrTick = 0xA00 ∧ ∀ s : State,
    (s.burstArmed = false → exec .addrTick s = .next { s with trace := .silent }) ∧
    (s.burstArmed = true → s.burstTicks + 1 < s.cfg.nBurst → exec .addrTick s = .next { s with
      burstTicks := s.burstTicks + 1, trace := .silent }) ∧
    (s.burstArmed = true → s.cfg.nBurst ≤ s.burstTicks + 1 → s.pulseCount ≠ 0 → s.pulseCount.getLsbD 0 = false →
      exec .addrTick s = .next { s with
        pulseCount := 0, burstArmed := false, burstTicks := 0, assignPending := some s.pulseCount,
        trace := .silent }) ∧
    (s.burstArmed = true → s.cfg.nBurst ≤ s.burstTicks + 1 → s.pulseCount = 0 ∨ s.pulseCount.getLsbD 0 = true →
      exec .addrTick s = .next { s with
        pulseCount := 0, burstArmed := false, burstTicks := 0,
        trace := { TraceRecord.silent with cause := .addressingNoise } })

/-- R180: ADDR_COMMIT with nothing pending, held while the engine is busy, and committing. -/
def Obligations.AddrCommitResult : Prop :=
  encode .addrCommit = 0xB00 ∧ agentOf .addrCommit = .cooperativeLoop ∧ ∀ s : State,
    (s.assignPending = none → exec .addrCommit s = .next { s with trace := .silent }) ∧
    (s.state ≠ .idle → exec .addrCommit s = .next { s with trace := .silent }) ∧
    (∀ n, s.assignPending = some n → s.state = .idle → exec .addrCommit s = .next { s with
      ownAddr := deviceAddress s.cfg.deviceClass (n / 2), emitRemaining := n.setWidth 9 + 2, assignPending := none,
      trace := { TraceRecord.silent with
        persistReq := some ((deviceAddress s.cfg.deviceClass (n / 2)).setWidth 8), assigned := some (n / 2) } })

/-- R66: the address the block answers, the formula of the device address and its fields; indices that differ by a
multiple of 8 share one. -/
def Obligations.DeviceAddressFields : Prop :=
  (∀ s : State, s.addrMatch = s.ownAddr) ∧
  ∀ (c : DevClass) (idx : Byte),
    deviceAddress c idx = (c.setWidth 7 <<< 3) ||| (idx &&& 0x7).setWidth 7 ∧
    (deviceAddress c idx).extractLsb' 3 4 = c ∧ (deviceAddress c idx).extractLsb' 0 3 = idx.extractLsb' 0 3 ∧
    (∀ k : Nat, deviceAddress c (idx + BitVec.ofNat 8 (8 * k)) = deviceAddress c idx)

/-- R186: ADDR_EMIT. -/
def Obligations.AddrEmitResult : Prop :=
  encode .addrEmit = 0xC00 ∧ agentOf .addrEmit = .cooperativeLoop ∧ ∀ s : State,
    (s.emitRemaining = 0 → exec .addrEmit s = .next { s with trace := .silent }) ∧
    (s.emitRemaining ≠ 0 → ∃ t, exec .addrEmit s = .next t ∧ t.emitRemaining.toNat + 1 = s.emitRemaining.toNat ∧
      t = { s with emitRemaining := t.emitRemaining, trace := { TraceRecord.silent with addrOutPulse := true } })

-- ---------------------------------------------------------------- the event line

/-- R200: EVT_ASSERT. -/
def Obligations.EvtAssertResult : Prop :=
  encode .evtAssert = 0xD00 ∧ agentOf .evtAssert = .cooperativeLoop ∧ ∀ s : State,
    exec .evtAssert s = .next { s with evtLine := true, evtArmed := true, evtTicks := 0, trace := .silent } ∧
    ∀ t, exec .evtAssert s = .next t → t.eventLine = true

/-- R203 with R205: EVT_RELEASE. -/
def Obligations.EvtReleaseResult : Prop :=
  encode .evtRelease = 0xE00 ∧ agentOf .evtRelease = .cooperativeLoop ∧ ∀ s : State,
    exec .evtRelease s = .next { s with evtLine := false, evtArmed := false, evtTicks := 0, trace := .silent }

/-- R206: EVT_TICK with the timer stopped, before the expiry and at it. -/
def Obligations.EvtTickResult : Prop :=
  encode .evtTick = 0xF00 ∧ ∀ s : State,
    (s.evtArmed = false → exec .evtTick s = .next { s with trace := .silent }) ∧
    (s.evtArmed = true → s.evtTicks + 1 < s.cfg.mEvt → exec .evtTick s = .next { s with
      evtTicks := s.evtTicks + 1, trace := .silent }) ∧
    (s.evtArmed = true → s.cfg.mEvt ≤ s.evtTicks + 1 → exec .evtTick s = .next { s with
      evtLine := false, evtArmed := false, evtTicks := 0,
      trace := { TraceRecord.silent with cause := .timeoutAbandonment } })

-- ---------------------------------------------------------------- rules of the whole machine

/-- The frame of every operation: it leaves every register it has no W mark for in R42, the marks of `evt_ticks` under
BUS_ADDR_TX and EVT_RELEASE added, which R42 lacks and R125, R203 and R205, which govern, give. It leaves every slot of the
queue but the one at `q_tail`, and that one too unless a BUS_DATA_RX finds the engine in `RC` with room (R118). No
operation writes the parameters (R276) or the issued words. -/
def Obligations.OnlyMarkedRegistersChange : Prop :=
  ∀ (i : Instr) (s t : State), exec i s = .next t →
    (∀ r, mayWrite i r = false → r.value t = r.value s) ∧
    (∀ k : SlotIdx, k ≠ s.qTail ∨ ¬((∃ d, i = .busDataRx d) ∧ s.state = .rc ∧ s.qFull = false) →
      t.memRead k = s.memRead k) ∧
    t.cfg = s.cfg ∧ t.issued = s.issued

/-- R42, the R marks: what an operation does depends only on the registers it has an R mark for (and the parameters).
From two states that agree on those it is refused alike, gives one trace record, and leaves each register either as
it was in both or the same in both. -/
def Obligations.OnlyMarkedRegistersAreRead : Prop :=
  ∀ (i : Instr) (s s' : State), s.cfg = s'.cfg → (∀ r, mayRead i r = true → r.value s = r.value s') →
    (∀ e, exec i s = .refused e ↔ exec i s' = .refused e) ∧
    (∀ t, exec i s = .next t → ∃ t', exec i s' = .next t' ∧ t'.trace = t.trace ∧
      ∀ r : Reg, (r.value t = r.value s ∧ r.value t' = r.value s') ∨ r.value t = r.value t')

/-- R86 (b) to (d): an operation is refused in these three cases and answers a next state in every other. -/
def Obligations.RefusedExactlyWhenSaid : Prop :=
  ∀ (i : Instr) (s : State),
    let b := i = .dispTake ∧ s.inflight ≠ none
    let c := (∃ r, i = .dispExec r) ∧ s.inflight = none
    let d := (∃ a, i = .reinit a) ∧ s.state ≠ .idle
    (b ↔ exec i s = .refused .twoInFlight) ∧ (c ↔ exec i s = .refused .nothingInFlight) ∧
    (d ↔ exec i s = .refused .reinitMidTransaction) ∧ (¬b ∧ ¬c ∧ ¬d ↔ ∃ t, exec i s = .next t)

/-- R232: every operation of the interrupt context completes in every state, and only the loop's can be refused. -/
def Obligations.InterruptOperationsComplete : Prop :=
  ∀ (i : Instr), contextOf (agentOf i) = .interrupt → ∀ s, ∃ t, exec i s = .next t

/-- R40, the "driven by" column: which operation drives which output; and when, from the operations' rules: a response to
every bus event (R110), a byte only from BUS_ADDR_TX (R125), one handler call and the liveness strobe from every DISP_EXEC
(R153, R156), the requests of a commit that is not held (R180), a pulse while pulses remain (R186). -/
def Obligations.OutputsDrivenByOperation : Prop :=
  ∀ (i : Instr) (s t : State), exec i s = .next t →
    (t.trace.busResp ≠ none ↔ agentOf i = .busPeripheral) ∧
    (t.trace.busTx ≠ none ↔ i = .busAddrTx) ∧
    (t.trace.writeCall ≠ none ∨ t.trace.readCall ≠ none ↔ ∃ r, i = .dispExec r) ∧
    (t.trace.writeCall = none ∨ t.trace.readCall = none) ∧
    (t.trace.liveness = true ↔ ∃ r, i = .dispExec r) ∧
    (t.trace.persistReq ≠ none ↔ i = .addrCommit ∧ s.state = .idle ∧ s.assignPending ≠ none) ∧
    (t.trace.assigned ≠ none ↔ t.trace.persistReq ≠ none) ∧
    (t.trace.addrOutPulse = true ↔ i = .addrEmit ∧ s.emitRemaining ≠ 0)

/-- R220: which operation raises which cause, and when. -/
def Obligations.CausesRaisedExactly : Prop :=
  ∀ (i : Instr) (s t : State), exec i s = .next t →
    (t.trace.cause = .busProtocolViolation ↔
      (i = .busAddrRx ∧ s.state ≠ .idle) ∨ ((∃ d, i = .busDataRx d) ∧ s.state ≠ .wrc ∧ s.state ≠ .rc) ∨
      (i = .busDataTx ∧ s.state ≠ .rrc) ∨ ∃ d, i = .busOther d) ∧
    (t.trace.cause = .queueSaturation ↔
      s.qFull = true ∧ ((i = .busAddrRx ∧ s.state = .idle) ∨ ((∃ d, i = .busDataRx d) ∧ s.state = .rc))) ∧
    (t.trace.cause = .invalidFirstByte ↔ i = .busDataRx 0x00 ∧ s.state = .wrc) ∧
    (t.trace.cause = .addressingNoise ↔
      i = .addrTick ∧ s.burstArmed = true ∧ s.cfg.nBurst ≤ s.burstTicks + 1 ∧ validCount s.pulseCount = false) ∧
    (t.trace.cause = .timeoutAbandonment ↔
      i = .evtTick ∧ s.evtArmed = true ∧ s.cfg.mEvt ≤ s.evtTicks + 1)

/-- The invariant of the reachable states holds right after reset, for every parameter choice in range and all slot
contents. -/
def Obligations.InvariantAtReset : Prop :=
  Inv State.reset ∧ ∀ c slots, c.wf = true → Inv (State.resetOf c slots)

/-- The invariant of the reachable states (R72, R145, R209, the ranges of R30 to R36) is kept by every step. -/
def Obligations.StepKeepsInvariant : Prop :=
  ∀ s t : State, Inv s → step s = .next t → Inv t

/-- R145 (3): in the states the invariant rules in, the argument byte is never refused. -/
def Obligations.ArgumentNeverRefused : Prop :=
  ∀ (s t : State) (d : Byte), Inv s → s.state = .rc → exec (.busDataRx d) s = .next t →
    t.state = .rab ∧ t.trace.busResp = some .ack ∧ queued t = queued s ++ [recordOf s.cmdLatch d]

-- ---------------------------------------------------------------- the queue

/-- R52, R53: empty and full, in the indices and in the count; with R38 and R54, the list view of the queue has
`q_count` records, at most seven, and is never both. -/
def Obligations.QueueCountLaws : Prop :=
  ∀ s : State, (s.qEmpty = true ↔ s.qHead = s.qTail) ∧ (s.qFull = true ↔ s.qTail + 1 = s.qHead) ∧
    (queued s).length = s.qCount ∧ s.qCount ≤ 7 ∧ (s.qEmpty = true ↔ s.qCount = 0) ∧
    (s.qFull = true ↔ s.qCount = 7) ∧ ¬(s.qEmpty = true ∧ s.qFull = true)

/-- R59, R60: the producer and the consumer each keep to their end of the queue. With room and with a record waiting, an
enqueue and a dequeue give the same state in either order, the trace records aside, and the same answers. -/
def Obligations.EnqueueAndDequeueCommute : Prop :=
  ∀ (s : State) (d : Byte), s.state = .rc → s.qFull = false → s.qEmpty = false → s.inflight = none →
    ∃ a b t u, runOps [.busDataRx d, .dispTake] s = some ([a, b], t) ∧
      runOps [.dispTake, .busDataRx d] s = some ([b, a], u) ∧ u = { t with trace := a } ∧
      t.inflight = (queued s).head? ∧ queued t = (queued s).tail ++ [recordOf s.cmdLatch d]

/-- The ring buffer refines a list (R55 to R57): every operation that completes appends the record it accepts at the end
and removes at the front what it takes into flight. -/
def Obligations.RingRefinesFifo : Prop :=
  ∀ (i : Instr) (s t : State), exec i s = .next t →
    (i ≠ .dispTake → queued t = queued s ++ (accepted i s).toList) ∧
    (i = .dispTake → queued s = [] → queued t = [] ∧ t.inflight = none) ∧
    (i = .dispTake → ∀ r rs, queued s = r :: rs → queued t = rs ∧ t.inflight = some r)

/-- R57, R72 (4), R158 (1): over any run of operations, what the handlers were called with, then what is still
outstanding, is what was outstanding at the start, then what the run accepted: each record once, in order. -/
def Obligations.FifoConservation : Prop :=
  ∀ (is : List Instr) (s t : State) (ts : List TraceRecord), runOps is s = some (ts, t) →
    ts.filterMap handlerCall ++ outstanding t = outstanding s ++ acceptedIn is s

/-- R58: no operation changes a slot that holds a record not yet dequeued. -/
def Obligations.OccupiedSlotsKept : Prop :=
  ∀ (i : Instr) (s t : State), exec i s = .next t → ∀ k, k < s.qCount →
    t.memRead (s.qHead + BitVec.ofNat 3 k) = s.memRead (s.qHead + BitVec.ofNat 3 k)

/-- R274: with the loop stalled, at most seven writes are accepted, less the records already queued. -/
def Obligations.StalledLoopAcceptsSeven : Prop :=
  ∀ (is : List Instr) (s t : State) (ts : List TraceRecord), .dispTake ∉ is → runOps is s = some (ts, t) →
    (acceptedIn is s).length + s.qCount = t.qCount ∧ (acceptedIn is s).length ≤ 7 - s.qCount

/-- R72 (3): from an idle engine, the engine is in `WRC` only if the last bus event so far is a BUS_ADDR_RX that was
accepted (answered ACK, no cause raised); it is in `RC` only if the last two are such a BUS_ADDR_RX and the data byte that
`cmd_latch` holds, accepted too. Operations that are no bus events may stand between and after. -/
def Obligations.CommandCameFromItsTransaction : Prop :=
  ∀ (is : List Instr) (s t : State) (ts : List TraceRecord), s.state = .idle → runOps is s = some (ts, t) →
    (t.state = .wrc → ∃ a b ra rb r, is = a ++ .busAddrRx :: b ∧ ts = ra ++ r :: rb ∧ ra.length = a.length ∧
      r.busResp = some .ack ∧ r.cause = .none ∧ busEvents b = []) ∧
    (t.state = .rc → t.cmdLatch ≠ 0x00 ∧
      ∃ a b c ra rb rc r u, is = a ++ .busAddrRx :: (b ++ .busDataRx t.cmdLatch :: c) ∧
        ts = ra ++ r :: (rb ++ u :: rc) ∧ ra.length = a.length ∧ rb.length = b.length ∧
        r.busResp = some .ack ∧ r.cause = .none ∧ u.busResp = some .ack ∧ u.cause = .none ∧
        busEvents b = [] ∧ busEvents c = [])

/-- R89 and the source's scenario: a whole write transaction, with room in the queue, enqueues exactly its record and
ends idle, every phase acknowledged. -/
def Obligations.WriteTransactionEnqueuesOnce : Prop :=
  ∀ (s : State) (c a : Byte), s.state = .idle → s.qFull = false → c ≠ 0x00 →
    ∃ ts t, runOps (expand (.busWrite c a) s) s = some (ts, t) ∧ t.state = .idle ∧
      queued t = queued s ++ [c ++ a] ∧ ts.map (·.busResp) = [some .ack, some .ack, some .ack, some .ack]

/-- R158 (4): the dispatch loop run to its end, whatever the read handler answers, leaves the queue empty and nothing in
flight, and has called a handler for each queued record in order. -/
def Obligations.DrainEmptiesQueue : Prop :=
  ∀ (s : State) (answers : List Byte), s.inflight = none → answers.length = s.qCount →
    ∃ ts t, runOps (answers.flatMap fun r => expand (.dispOne r) s) s = some (ts, t) ∧
      t.qEmpty = true ∧ t.inflight = none ∧ ts.filterMap handlerCall = queued s ∧
      exec .dispTake t = .next { t with trace := .silent }

-- ---------------------------------------------------------------- the read result

/-- R63: a read result stays until a BUS_ADDR_TX loads it or a later DISP_EXEC replaces it; the next BUS_ADDR_TX with no
DISP_EXEC between loads 0x00. -/
def Obligations.ReadResultConsumedOnce : Prop :=
  ∀ (is : List Instr) (s t : State) (ts : List TraceRecord),
    (∀ r, Instr.dispExec r ∉ is) → runOps is s = some (ts, t) →
    (Instr.busAddrTx ∉ is → ∀ u, exec .busAddrTx t = .next u → u.trace.busTx = some s.readResult) ∧
    (Instr.busAddrTx ∈ is → ∀ u, exec .busAddrTx t = .next u → u.trace.busTx = some 0x00)

-- ---------------------------------------------------------------- handshake and event line over runs

/-- R190 (1), the valid burst: `k` edges, `N_BURST` ticks, a commit with the engine idle and `k + 2` emissions, `k` even
from 2 to 254, assign the address of index `k / 2` and pass `k + 2` pulses on. -/
def Obligations.ValidBurstAssigns : Prop :=
  ∀ (s : State) (k : Nat), s.cfg.wf = true → s.state = .idle → s.pulseCount = 0 → k % 2 = 0 → 2 ≤ k → k ≤ 254 →
    ∃ ts t, runOps (expand (.addrBurst k) s ++ expand .addrQuiet s ++ [.addrCommit] ++
        List.replicate (k + 2) .addrEmit) s = some (ts, t) ∧
      t.ownAddr = deviceAddress s.cfg.deviceClass (BitVec.ofNat 8 (k / 2)) ∧
      ts.filterMap (·.persistReq) = [t.ownAddr.setWidth 8] ∧
      ts.filterMap (·.assigned) = [BitVec.ofNat 8 (k / 2)] ∧ pulsesIn ts = k + 2 ∧ t.emitRemaining = 0 ∧
      t.pulseCount = 0

/-- R190 (1), noise: `k` odd, zero, or 255 and more assigns nothing, asks for nothing and passes no pulse on. -/
def Obligations.NoisyBurstIgnored : Prop :=
  ∀ (s : State) (k : Nat), s.cfg.wf = true → s.pulseCount = 0 → s.assignPending = none → s.emitRemaining = 0 →
    k % 2 = 1 ∨ k = 0 ∨ 255 ≤ k →
    ∃ ts t, runOps (expand (.addrBurst k) s ++ expand .addrQuiet s ++ [.addrCommit] ++
        List.replicate (k + 2) .addrEmit) s = some (ts, t) ∧
      t.ownAddr = s.ownAddr ∧ t.assignPending = none ∧ t.emitRemaining = 0 ∧ t.pulseCount = 0 ∧
      ts.filterMap (·.persistReq) = [] ∧ ts.filterMap (·.assigned) = [] ∧ pulsesIn ts = 0

/-- R190 (2): a module that receives `2j` pulses takes index `j`, and the pulses it sends give the next module, whatever
its parameters, index `j + 1`. -/
def Obligations.ChainHandsOnNextIndex : Prop :=
  ∀ (a b : State) (j : Nat), a.cfg.wf = true → b.cfg.wf = true → a.state = .idle → b.state = .idle →
    a.pulseCount = 0 → b.pulseCount = 0 → 1 ≤ j → 2 * j + 2 ≤ 254 →
    ∃ ta a' tb b',
      runOps (expand (.addrBurst (2 * j)) a ++ expand .addrQuiet a ++ [.addrCommit] ++
        List.replicate (2 * j + 2) .addrEmit) a = some (ta, a') ∧
      ta.filterMap (·.assigned) = [BitVec.ofNat 8 j] ∧
      runOps (expand (.addrBurst (pulsesIn ta)) b ++ expand .addrQuiet b ++ [.addrCommit]) b = some (tb, b') ∧
      tb.filterMap (·.assigned) = [BitVec.ofNat 8 (j + 1)] ∧
      b'.ownAddr = deviceAddress b.cfg.deviceClass (BitVec.ofNat 8 (j + 1))

/-- R209 (1): after EVT_ASSERT, with no BUS_ADDR_TX, EVT_ASSERT or EVT_RELEASE between, the line stays asserted for fewer
than `M_EVT` ticks and is released from the `M_EVT`-th on, whatever else runs. -/
def Obligations.EventLineTimesOut : Prop :=
  ∀ (is : List Instr) (s t : State) (ts : List TraceRecord), s.cfg.wf = true →
    .busAddrTx ∉ is → .evtAssert ∉ is → .evtRelease ∉ is → runOps (.evtAssert :: is) s = some (ts, t) →
    (is.count .evtTick < s.cfg.mEvt → t.eventLine = true ∧ t.evtTicks = is.count .evtTick) ∧
    (s.cfg.mEvt ≤ is.count .evtTick → t.eventLine = false ∧ t.evtArmed = false)

/-- R41 with R87: when the block is quiescent the loop's polling operations change no register and drive no output, so
suspending loses nothing. -/
def Obligations.QuiescentPollsDoNothing : Prop :=
  ∀ (s : State) (i : Instr), s.quiescent = true → i = .dispTake ∨ i = .addrCommit ∨ i = .addrEmit →
    exec i s = .next { s with trace := .silent }

-- ---------------------------------------------------------------- the textual form, and fairness

/-- R88: each operation's line, as tokens and as it is written out, reads back as the operation; `disp.exec` alone is
`disp.exec 0x00`, and `reinit` takes no operand above 0x7F. -/
def Obligations.TextReadsBack : Prop :=
  (∀ i, assemble (textOf i) = some i ∧ assembleText (renderLine (textOf i)) = some i) ∧
  assembleText "disp.exec" = some (.dispExec 0x00) ∧
  ∀ d : Byte, 0x7F < d.toNat → assemble ⟨"reinit", some d⟩ = none

/-- R281 (F1): in a run in which dispatching is fair, every outstanding record eventually reaches its handler. -/
def Obligations.FairDispatchDelivers : Prop :=
  ∀ (ops : Nat → Instr) (run : Nat → State), IsRun ops run → FairDispatch ops run →
    ∀ n r, r ∈ outstanding (run n) → ∃ m, n ≤ m ∧ handlerCall (run (m + 1)).trace = some r

/-- R281 (F3): in a run in which emitting is fair, an emission that no later commit replaces comes to its end. -/
def Obligations.FairEmissionEnds : Prop :=
  ∀ (ops : Nat → Instr) (run : Nat → State), IsRun ops run → FairEmit ops run →
    ∀ n, (∀ m, n ≤ m → ops m ≠ .addrCommit) → ∃ m, n ≤ m ∧ (run m).emitRemaining = 0

/-- R281 (F4): in a run in which the tick agents tick for ever, from a state that meets the invariant on, an event line that
is not asserted again is released. -/
def Obligations.FairTicksReleaseLine : Prop :=
  ∀ (ops : Nat → Instr) (run : Nat → State), IsRun ops run → FairTicks ops →
    ∀ n, Inv (run n) → (∀ m, n ≤ m → ops m ≠ .evtAssert) → ∃ m, n ≤ m ∧ (run m).evtLine = false

/-- R281 (F2): in a run in which committing is fair, a pending assignment is committed if the engine stays idle. -/
def Obligations.FairCommitAssigns : Prop :=
  ∀ (ops : Nat → Instr) (run : Nat → State), IsRun ops run → FairCommit ops run →
    ∀ n, (run n).assignPending ≠ none → (∀ m, n ≤ m → (run m).state = .idle) →
      ∃ m, n ≤ m ∧ ops m = .addrCommit ∧ (run (m + 1)).trace.assigned ≠ none
end

