-- ==== Sys2Proof/Laws/State.lean ====
section
/-! SUPPORT. One lemma per field per update of the state, each true by unfolding, so that no later proof unfolds a record
update; then the derived values of R38 and R41 and the slot reads across the updates that leave them. -/

namespace Sys2Proof.Machine

-- State.finish
@[simp] theorem State.finish_state (s : State) (t : TraceRecord) : (s.finish t).state = s.state := rfl
@[simp] theorem State.finish_cmdLatch (s : State) (t : TraceRecord) : (s.finish t).cmdLatch = s.cmdLatch := rfl
@[simp] theorem State.finish_argLatch (s : State) (t : TraceRecord) : (s.finish t).argLatch = s.argLatch := rfl
@[simp] theorem State.finish_ownAddr (s : State) (t : TraceRecord) : (s.finish t).ownAddr = s.ownAddr := rfl
@[simp] theorem State.finish_readResult (s : State) (t : TraceRecord) : (s.finish t).readResult = s.readResult := rfl
@[simp] theorem State.finish_qHead (s : State) (t : TraceRecord) : (s.finish t).qHead = s.qHead := rfl
@[simp] theorem State.finish_qTail (s : State) (t : TraceRecord) : (s.finish t).qTail = s.qTail := rfl
@[simp] theorem State.finish_q (s : State) (t : TraceRecord) : (s.finish t).q = s.q := rfl
@[simp] theorem State.finish_inflight (s : State) (t : TraceRecord) : (s.finish t).inflight = s.inflight := rfl
@[simp] theorem State.finish_pulseCount (s : State) (t : TraceRecord) : (s.finish t).pulseCount = s.pulseCount := rfl
@[simp] theorem State.finish_burstArmed (s : State) (t : TraceRecord) : (s.finish t).burstArmed = s.burstArmed := rfl
@[simp] theorem State.finish_burstTicks (s : State) (t : TraceRecord) : (s.finish t).burstTicks = s.burstTicks := rfl
@[simp] theorem State.finish_assignPending (s : State) (t : TraceRecord) : (s.finish t).assignPending = s.assignPending := rfl
@[simp] theorem State.finish_emitRemaining (s : State) (t : TraceRecord) : (s.finish t).emitRemaining = s.emitRemaining := rfl
@[simp] theorem State.finish_evtLine (s : State) (t : TraceRecord) : (s.finish t).evtLine = s.evtLine := rfl
@[simp] theorem State.finish_evtArmed (s : State) (t : TraceRecord) : (s.finish t).evtArmed = s.evtArmed := rfl
@[simp] theorem State.finish_evtTicks (s : State) (t : TraceRecord) : (s.finish t).evtTicks = s.evtTicks := rfl
@[simp] theorem State.finish_cfg (s : State) (t : TraceRecord) : (s.finish t).cfg = s.cfg := rfl
@[simp] theorem State.finish_issued (s : State) (t : TraceRecord) : (s.finish t).issued = s.issued := rfl
@[simp] theorem State.finish_trace (s : State) (t : TraceRecord) : (s.finish t).trace = t := rfl
@[simp] theorem State.finish_qEmpty (s : State) (t : TraceRecord) : (s.finish t).qEmpty = s.qEmpty := rfl
@[simp] theorem State.finish_qFull (s : State) (t : TraceRecord) : (s.finish t).qFull = s.qFull := rfl
@[simp] theorem State.finish_qCount (s : State) (t : TraceRecord) : (s.finish t).qCount = s.qCount := rfl
@[simp] theorem State.finish_memRead (s : State) (t : TraceRecord) (k : SlotIdx) : (s.finish t).memRead k = s.memRead k := rfl

-- State.goto
@[simp] theorem State.goto_state (s : State) (b : BusState) : (s.goto b).state = b := rfl
@[simp] theorem State.goto_cmdLatch (s : State) (b : BusState) : (s.goto b).cmdLatch = s.cmdLatch := rfl
@[simp] theorem State.goto_argLatch (s : State) (b : BusState) : (s.goto b).argLatch = s.argLatch := rfl
@[simp] theorem State.goto_ownAddr (s : State) (b : BusState) : (s.goto b).ownAddr = s.ownAddr := rfl
@[simp] theorem State.goto_readResult (s : State) (b : BusState) : (s.goto b).readResult = s.readResult := rfl
@[simp] theorem State.goto_qHead (s : State) (b : BusState) : (s.goto b).qHead = s.qHead := rfl
@[simp] theorem State.goto_qTail (s : State) (b : BusState) : (s.goto b).qTail = s.qTail := rfl
@[simp] theorem State.goto_q (s : State) (b : BusState) : (s.goto b).q = s.q := rfl
@[simp] theorem State.goto_inflight (s : State) (b : BusState) : (s.goto b).inflight = s.inflight := rfl
@[simp] theorem State.goto_pulseCount (s : State) (b : BusState) : (s.goto b).pulseCount = s.pulseCount := rfl
@[simp] theorem State.goto_burstArmed (s : State) (b : BusState) : (s.goto b).burstArmed = s.burstArmed := rfl
@[simp] theorem State.goto_burstTicks (s : State) (b : BusState) : (s.goto b).burstTicks = s.burstTicks := rfl
@[simp] theorem State.goto_assignPending (s : State) (b : BusState) : (s.goto b).assignPending = s.assignPending := rfl
@[simp] theorem State.goto_emitRemaining (s : State) (b : BusState) : (s.goto b).emitRemaining = s.emitRemaining := rfl
@[simp] theorem State.goto_evtLine (s : State) (b : BusState) : (s.goto b).evtLine = s.evtLine := rfl
@[simp] theorem State.goto_evtArmed (s : State) (b : BusState) : (s.goto b).evtArmed = s.evtArmed := rfl
@[simp] theorem State.goto_evtTicks (s : State) (b : BusState) : (s.goto b).evtTicks = s.evtTicks := rfl
@[simp] theorem State.goto_cfg (s : State) (b : BusState) : (s.goto b).cfg = s.cfg := rfl
@[simp] theorem State.goto_issued (s : State) (b : BusState) : (s.goto b).issued = s.issued := rfl
@[simp] theorem State.goto_trace (s : State) (b : BusState) : (s.goto b).trace = s.trace := rfl
@[simp] theorem State.goto_qEmpty (s : State) (b : BusState) : (s.goto b).qEmpty = s.qEmpty := rfl
@[simp] theorem State.goto_qFull (s : State) (b : BusState) : (s.goto b).qFull = s.qFull := rfl
@[simp] theorem State.goto_qCount (s : State) (b : BusState) : (s.goto b).qCount = s.qCount := rfl
@[simp] theorem State.goto_memRead (s : State) (b : BusState) (k : SlotIdx) : (s.goto b).memRead k = s.memRead k := rfl

-- State.setAddr
@[simp] theorem State.setAddr_state (s : State) (a : BusAddr) : (s.setAddr a).state = s.state := rfl
@[simp] theorem State.setAddr_cmdLatch (s : State) (a : BusAddr) : (s.setAddr a).cmdLatch = s.cmdLatch := rfl
@[simp] theorem State.setAddr_argLatch (s : State) (a : BusAddr) : (s.setAddr a).argLatch = s.argLatch := rfl
@[simp] theorem State.setAddr_ownAddr (s : State) (a : BusAddr) : (s.setAddr a).ownAddr = a := rfl
@[simp] theorem State.setAddr_readResult (s : State) (a : BusAddr) : (s.setAddr a).readResult = s.readResult := rfl
@[simp] theorem State.setAddr_qHead (s : State) (a : BusAddr) : (s.setAddr a).qHead = s.qHead := rfl
@[simp] theorem State.setAddr_qTail (s : State) (a : BusAddr) : (s.setAddr a).qTail = s.qTail := rfl
@[simp] theorem State.setAddr_q (s : State) (a : BusAddr) : (s.setAddr a).q = s.q := rfl
@[simp] theorem State.setAddr_inflight (s : State) (a : BusAddr) : (s.setAddr a).inflight = s.inflight := rfl
@[simp] theorem State.setAddr_pulseCount (s : State) (a : BusAddr) : (s.setAddr a).pulseCount = s.pulseCount := rfl
@[simp] theorem State.setAddr_burstArmed (s : State) (a : BusAddr) : (s.setAddr a).burstArmed = s.burstArmed := rfl
@[simp] theorem State.setAddr_burstTicks (s : State) (a : BusAddr) : (s.setAddr a).burstTicks = s.burstTicks := rfl
@[simp] theorem State.setAddr_assignPending (s : State) (a : BusAddr) : (s.setAddr a).assignPending = s.assignPending := rfl
@[simp] theorem State.setAddr_emitRemaining (s : State) (a : BusAddr) : (s.setAddr a).emitRemaining = s.emitRemaining := rfl
@[simp] theorem State.setAddr_evtLine (s : State) (a : BusAddr) : (s.setAddr a).evtLine = s.evtLine := rfl
@[simp] theorem State.setAddr_evtArmed (s : State) (a : BusAddr) : (s.setAddr a).evtArmed = s.evtArmed := rfl
@[simp] theorem State.setAddr_evtTicks (s : State) (a : BusAddr) : (s.setAddr a).evtTicks = s.evtTicks := rfl
@[simp] theorem State.setAddr_cfg (s : State) (a : BusAddr) : (s.setAddr a).cfg = s.cfg := rfl
@[simp] theorem State.setAddr_issued (s : State) (a : BusAddr) : (s.setAddr a).issued = s.issued := rfl
@[simp] theorem State.setAddr_trace (s : State) (a : BusAddr) : (s.setAddr a).trace = s.trace := rfl
@[simp] theorem State.setAddr_qEmpty (s : State) (a : BusAddr) : (s.setAddr a).qEmpty = s.qEmpty := rfl
@[simp] theorem State.setAddr_qFull (s : State) (a : BusAddr) : (s.setAddr a).qFull = s.qFull := rfl
@[simp] theorem State.setAddr_qCount (s : State) (a : BusAddr) : (s.setAddr a).qCount = s.qCount := rfl
@[simp] theorem State.setAddr_memRead (s : State) (a : BusAddr) (k : SlotIdx) : (s.setAddr a).memRead k = s.memRead k := rfl

-- State.releaseEvt
@[simp] theorem State.releaseEvt_state (s : State) : (s.releaseEvt).state = s.state := rfl
@[simp] theorem State.releaseEvt_cmdLatch (s : State) : (s.releaseEvt).cmdLatch = s.cmdLatch := rfl
@[simp] theorem State.releaseEvt_argLatch (s : State) : (s.releaseEvt).argLatch = s.argLatch := rfl
@[simp] theorem State.releaseEvt_ownAddr (s : State) : (s.releaseEvt).ownAddr = s.ownAddr := rfl
@[simp] theorem State.releaseEvt_readResult (s : State) : (s.releaseEvt).readResult = s.readResult := rfl
@[simp] theorem State.releaseEvt_qHead (s : State) : (s.releaseEvt).qHead = s.qHead := rfl
@[simp] theorem State.releaseEvt_qTail (s : State) : (s.releaseEvt).qTail = s.qTail := rfl
@[simp] theorem State.releaseEvt_q (s : State) : (s.releaseEvt).q = s.q := rfl
@[simp] theorem State.releaseEvt_inflight (s : State) : (s.releaseEvt).inflight = s.inflight := rfl
@[simp] theorem State.releaseEvt_pulseCount (s : State) : (s.releaseEvt).pulseCount = s.pulseCount := rfl
@[simp] theorem State.releaseEvt_burstArmed (s : State) : (s.releaseEvt).burstArmed = s.burstArmed := rfl
@[simp] theorem State.releaseEvt_burstTicks (s : State) : (s.releaseEvt).burstTicks = s.burstTicks := rfl
@[simp] theorem State.releaseEvt_assignPending (s : State) : (s.releaseEvt).assignPending = s.assignPending := rfl
@[simp] theorem State.releaseEvt_emitRemaining (s : State) : (s.releaseEvt).emitRemaining = s.emitRemaining := rfl
@[simp] theorem State.releaseEvt_evtLine (s : State) : (s.releaseEvt).evtLine = false := rfl
@[simp] theorem State.releaseEvt_evtArmed (s : State) : (s.releaseEvt).evtArmed = false := rfl
@[simp] theorem State.releaseEvt_evtTicks (s : State) : (s.releaseEvt).evtTicks = 0 := rfl
@[simp] theorem State.releaseEvt_cfg (s : State) : (s.releaseEvt).cfg = s.cfg := rfl
@[simp] theorem State.releaseEvt_issued (s : State) : (s.releaseEvt).issued = s.issued := rfl
@[simp] theorem State.releaseEvt_trace (s : State) : (s.releaseEvt).trace = s.trace := rfl
@[simp] theorem State.releaseEvt_qEmpty (s : State) : (s.releaseEvt).qEmpty = s.qEmpty := rfl
@[simp] theorem State.releaseEvt_qFull (s : State) : (s.releaseEvt).qFull = s.qFull := rfl
@[simp] theorem State.releaseEvt_qCount (s : State) : (s.releaseEvt).qCount = s.qCount := rfl
@[simp] theorem State.releaseEvt_memRead (s : State) (k : SlotIdx) : (s.releaseEvt).memRead k = s.memRead k := rfl

-- State.memWrite
@[simp] theorem State.memWrite_state (s : State) (i : SlotIdx) (v : Slot) : (s.memWrite i v).state = s.state := rfl
@[simp] theorem State.memWrite_cmdLatch (s : State) (i : SlotIdx) (v : Slot) : (s.memWrite i v).cmdLatch = s.cmdLatch := rfl
@[simp] theorem State.memWrite_argLatch (s : State) (i : SlotIdx) (v : Slot) : (s.memWrite i v).argLatch = s.argLatch := rfl
@[simp] theorem State.memWrite_ownAddr (s : State) (i : SlotIdx) (v : Slot) : (s.memWrite i v).ownAddr = s.ownAddr := rfl
@[simp] theorem State.memWrite_readResult (s : State) (i : SlotIdx) (v : Slot) : (s.memWrite i v).readResult = s.readResult := rfl
@[simp] theorem State.memWrite_qHead (s : State) (i : SlotIdx) (v : Slot) : (s.memWrite i v).qHead = s.qHead := rfl
@[simp] theorem State.memWrite_qTail (s : State) (i : SlotIdx) (v : Slot) : (s.memWrite i v).qTail = s.qTail := rfl
@[simp] theorem State.memWrite_inflight (s : State) (i : SlotIdx) (v : Slot) : (s.memWrite i v).inflight = s.inflight := rfl
@[simp] theorem State.memWrite_pulseCount (s : State) (i : SlotIdx) (v : Slot) : (s.memWrite i v).pulseCount = s.pulseCount := rfl
@[simp] theorem State.memWrite_burstArmed (s : State) (i : SlotIdx) (v : Slot) : (s.memWrite i v).burstArmed = s.burstArmed := rfl
@[simp] theorem State.memWrite_burstTicks (s : State) (i : SlotIdx) (v : Slot) : (s.memWrite i v).burstTicks = s.burstTicks := rfl
@[simp] theorem State.memWrite_assignPending (s : State) (i : SlotIdx) (v : Slot) : (s.memWrite i v).assignPending = s.assignPending := rfl
@[simp] theorem State.memWrite_emitRemaining (s : State) (i : SlotIdx) (v : Slot) : (s.memWrite i v).emitRemaining = s.emitRemaining := rfl
@[simp] theorem State.memWrite_evtLine (s : State) (i : SlotIdx) (v : Slot) : (s.memWrite i v).evtLine = s.evtLine := rfl
@[simp] theorem State.memWrite_evtArmed (s : State) (i : SlotIdx) (v : Slot) : (s.memWrite i v).evtArmed = s.evtArmed := rfl
@[simp] theorem State.memWrite_evtTicks (s : State) (i : SlotIdx) (v : Slot) : (s.memWrite i v).evtTicks = s.evtTicks := rfl
@[simp] theorem State.memWrite_cfg (s : State) (i : SlotIdx) (v : Slot) : (s.memWrite i v).cfg = s.cfg := rfl
@[simp] theorem State.memWrite_issued (s : State) (i : SlotIdx) (v : Slot) : (s.memWrite i v).issued = s.issued := rfl
@[simp] theorem State.memWrite_trace (s : State) (i : SlotIdx) (v : Slot) : (s.memWrite i v).trace = s.trace := rfl
@[simp] theorem State.memWrite_qEmpty (s : State) (i : SlotIdx) (v : Slot) : (s.memWrite i v).qEmpty = s.qEmpty := rfl
@[simp] theorem State.memWrite_qFull (s : State) (i : SlotIdx) (v : Slot) : (s.memWrite i v).qFull = s.qFull := rfl
@[simp] theorem State.memWrite_qCount (s : State) (i : SlotIdx) (v : Slot) : (s.memWrite i v).qCount = s.qCount := rfl

-- State.enqueue
@[simp] theorem State.enqueue_state (s : State) (r : Slot) : (s.enqueue r).state = s.state := rfl
@[simp] theorem State.enqueue_cmdLatch (s : State) (r : Slot) : (s.enqueue r).cmdLatch = s.cmdLatch := rfl
@[simp] theorem State.enqueue_argLatch (s : State) (r : Slot) : (s.enqueue r).argLatch = s.argLatch := rfl
@[simp] theorem State.enqueue_ownAddr (s : State) (r : Slot) : (s.enqueue r).ownAddr = s.ownAddr := rfl
@[simp] theorem State.enqueue_readResult (s : State) (r : Slot) : (s.enqueue r).readResult = s.readResult := rfl
@[simp] theorem State.enqueue_qHead (s : State) (r : Slot) : (s.enqueue r).qHead = s.qHead := rfl
@[simp] theorem State.enqueue_qTail (s : State) (r : Slot) : (s.enqueue r).qTail = inc8 s.qTail := rfl
@[simp] theorem State.enqueue_inflight (s : State) (r : Slot) : (s.enqueue r).inflight = s.inflight := rfl
@[simp] theorem State.enqueue_pulseCount (s : State) (r : Slot) : (s.enqueue r).pulseCount = s.pulseCount := rfl
@[simp] theorem State.enqueue_burstArmed (s : State) (r : Slot) : (s.enqueue r).burstArmed = s.burstArmed := rfl
@[simp] theorem State.enqueue_burstTicks (s : State) (r : Slot) : (s.enqueue r).burstTicks = s.burstTicks := rfl
@[simp] theorem State.enqueue_assignPending (s : State) (r : Slot) : (s.enqueue r).assignPending = s.assignPending := rfl
@[simp] theorem State.enqueue_emitRemaining (s : State) (r : Slot) : (s.enqueue r).emitRemaining = s.emitRemaining := rfl
@[simp] theorem State.enqueue_evtLine (s : State) (r : Slot) : (s.enqueue r).evtLine = s.evtLine := rfl
@[simp] theorem State.enqueue_evtArmed (s : State) (r : Slot) : (s.enqueue r).evtArmed = s.evtArmed := rfl
@[simp] theorem State.enqueue_evtTicks (s : State) (r : Slot) : (s.enqueue r).evtTicks = s.evtTicks := rfl
@[simp] theorem State.enqueue_cfg (s : State) (r : Slot) : (s.enqueue r).cfg = s.cfg := rfl
@[simp] theorem State.enqueue_issued (s : State) (r : Slot) : (s.enqueue r).issued = s.issued := rfl
@[simp] theorem State.enqueue_trace (s : State) (r : Slot) : (s.enqueue r).trace = s.trace := rfl

-- State.issue
@[simp] theorem State.issue_state (s : State) (w : Word) : (s.issue w).state = s.state := rfl
@[simp] theorem State.issue_cmdLatch (s : State) (w : Word) : (s.issue w).cmdLatch = s.cmdLatch := rfl
@[simp] theorem State.issue_argLatch (s : State) (w : Word) : (s.issue w).argLatch = s.argLatch := rfl
@[simp] theorem State.issue_ownAddr (s : State) (w : Word) : (s.issue w).ownAddr = s.ownAddr := rfl
@[simp] theorem State.issue_readResult (s : State) (w : Word) : (s.issue w).readResult = s.readResult := rfl
@[simp] theorem State.issue_qHead (s : State) (w : Word) : (s.issue w).qHead = s.qHead := rfl
@[simp] theorem State.issue_qTail (s : State) (w : Word) : (s.issue w).qTail = s.qTail := rfl
@[simp] theorem State.issue_q (s : State) (w : Word) : (s.issue w).q = s.q := rfl
@[simp] theorem State.issue_inflight (s : State) (w : Word) : (s.issue w).inflight = s.inflight := rfl
@[simp] theorem State.issue_pulseCount (s : State) (w : Word) : (s.issue w).pulseCount = s.pulseCount := rfl
@[simp] theorem State.issue_burstArmed (s : State) (w : Word) : (s.issue w).burstArmed = s.burstArmed := rfl
@[simp] theorem State.issue_burstTicks (s : State) (w : Word) : (s.issue w).burstTicks = s.burstTicks := rfl
@[simp] theorem State.issue_assignPending (s : State) (w : Word) : (s.issue w).assignPending = s.assignPending := rfl
@[simp] theorem State.issue_emitRemaining (s : State) (w : Word) : (s.issue w).emitRemaining = s.emitRemaining := rfl
@[simp] theorem State.issue_evtLine (s : State) (w : Word) : (s.issue w).evtLine = s.evtLine := rfl
@[simp] theorem State.issue_evtArmed (s : State) (w : Word) : (s.issue w).evtArmed = s.evtArmed := rfl
@[simp] theorem State.issue_evtTicks (s : State) (w : Word) : (s.issue w).evtTicks = s.evtTicks := rfl
@[simp] theorem State.issue_cfg (s : State) (w : Word) : (s.issue w).cfg = s.cfg := rfl
@[simp] theorem State.issue_issued (s : State) (w : Word) : (s.issue w).issued = w :: s.issued := rfl
@[simp] theorem State.issue_trace (s : State) (w : Word) : (s.issue w).trace = s.trace := rfl
@[simp] theorem State.issue_qEmpty (s : State) (w : Word) : (s.issue w).qEmpty = s.qEmpty := rfl
@[simp] theorem State.issue_qFull (s : State) (w : Word) : (s.issue w).qFull = s.qFull := rfl
@[simp] theorem State.issue_qCount (s : State) (w : Word) : (s.issue w).qCount = s.qCount := rfl
@[simp] theorem State.issue_memRead (s : State) (w : Word) (k : SlotIdx) : (s.issue w).memRead k = s.memRead k := rfl

/-- Waiting is ending an operation without one. -/
theorem State.wait_eq (s : State) : s.wait = s.finish .silent := rfl

/-- The level output follows its register (R41). -/
@[simp] theorem State.addrMatch_eq (s : State) : s.addrMatch = s.ownAddr := rfl

/-- The level output follows its register (R41). -/
@[simp] theorem State.eventLine_eq (s : State) : s.eventLine = s.evtLine := rfl

/-- The line to the next module is high but for a pulse (R41). -/
@[simp] theorem State.finish_addrOut (s : State) (t : TraceRecord) : (s.finish t).addrOut = !t.addrOutPulse := rfl

/-- Ending an operation twice leaves the later record. -/
@[simp] theorem State.finish_finish (s : State) (t u : TraceRecord) : (s.finish t).finish u = s.finish u := rfl

/-- Going on twice leaves the later state. -/
@[simp] theorem State.goto_goto (s : State) (a b : BusState) : (s.goto a).goto b = s.goto b := rfl

end Sys2Proof.Machine
end

