-- ==== Sys2Proof/Laws/Ops.lean ====
section
/-! SUPPORT. What each shared operation does, said once: the records (R51), the indices (R9), the slots (R50), the queue
primitives (R55, R56), and how an operation ends. -/

namespace Sys2Proof.Machine

-- records

/-- The command byte of a record (R51). -/
@[simp] theorem recCommand_recordOf (c a : Byte) : recCommand (recordOf c a) = c :=
  BitVec.extractLsb'_append_eq_left

/-- The argument byte of a record (R51). -/
@[simp] theorem recArgument_recordOf (c a : Byte) : recArgument (recordOf c a) = a :=
  BitVec.extractLsb'_append_eq_right

/-- A record is its two bytes (R51). -/
theorem recordOf_parts (r : Slot) : recordOf (recCommand r) (recArgument r) = r := by
  simp only [recordOf, recCommand, recArgument]
  apply BitVec.eq_of_toNat_eq
  rw [BitVec.toNat_append, ← Nat.shiftLeft_add_eq_or_of_lt (BitVec.isLt _)]
  simp [BitVec.extractLsb'_toNat, Nat.shiftRight_eq_div_pow, Nat.shiftLeft_eq]
  have := r.isLt
  omega

-- indices

/-- `inc8` is addition in three bits (R9). -/
theorem inc8_eq (a : SlotIdx) : inc8 a = a + 1 := by
  apply BitVec.eq_of_toNat_eq
  simp [inc8, BitVec.toNat_add]

/-- No index is its own successor (R38: empty and full exclude each other). -/
theorem inc8_ne (a : SlotIdx) : inc8 a ≠ a := by
  revert a; decide

-- slots

/-- A read of the slot just written gives the value written (R50). -/
@[simp] theorem memRead_memWrite_same (s : State) (i : SlotIdx) (v : Slot) : (s.memWrite i v).memRead i = v := by
  simp [State.memRead, State.memWrite]

/-- A write leaves every other slot alone (R50). -/
theorem memRead_memWrite_other (s : State) (i j : SlotIdx) (v : Slot) (h : j ≠ i) :
    (s.memWrite i v).memRead j = s.memRead j := by
  have hij : i.toNat ≠ j.toNat := fun e => h (BitVec.eq_of_toNat_eq e.symm)
  simp [State.memRead, State.memWrite, Vector.getElem_set_ne, hij]

/-- Two queue storages that read alike slot by slot are one. -/
theorem q_ext (s t : State) (h : ∀ i, s.memRead i = t.memRead i) : s.q = t.q := by
  apply Vector.ext
  intro i hi
  have := h (BitVec.ofNat 3 i)
  simpa [State.memRead, Nat.mod_eq_of_lt hi] using this

-- the queue primitives

/-- Enqueue writes the tail slot (R55). -/
@[simp] theorem memRead_enqueue_tail (s : State) (r : Slot) : (s.enqueue r).memRead s.qTail = r :=
  memRead_memWrite_same s s.qTail r

/-- Enqueue leaves every other slot alone (R55, R58). -/
theorem memRead_enqueue_other (s : State) (r : Slot) (j : SlotIdx) (h : j ≠ s.qTail) :
    (s.enqueue r).memRead j = s.memRead j := memRead_memWrite_other s s.qTail j r h

/-- Dequeue gives the head slot and advances the head, nothing else (R56). -/
theorem dequeue_eq (s : State) : s.dequeue = (s.memRead s.qHead, { s with qHead := inc8 s.qHead }) := rfl

-- the end of an operation

/-- What a bus event that answers leaves (R110). -/
theorem answer_next (s : State) (r : BusResp) (b : BusState) (c : Cause) :
    s.answer r b c = .next ((s.goto b).finish (.response r c)) := rfl

/-- A bus event that answers ends in one state only. -/
theorem answer_inj {s t : State} {r : BusResp} {b : BusState} {c : Cause} (h : s.answer r b c = .next t) :
    t = (s.goto b).finish (.response r c) := (Host.Outcome.next.inj h).symm

/-- An operation without effect changes nothing but the trace record (R87). -/
theorem noEffect_inj {s t : State} (h : s.noEffect = .next t) : t = s.finish .silent := (Host.Outcome.next.inj h).symm

/-- A refusal is no next state (R86). -/
theorem refuse_ne_next (r : Refusal) (t : State) : refuse r ≠ .next t := by simp [refuse]

end Sys2Proof.Machine
end

