-- ==== Sys2Proof/Laws/PerInstr.lean ====
section
/-! SUPPORT. For every operation, one lemma each: the fields of its word are those of an operation (R84), and the word is
the one R80 lays out. -/

namespace Sys2Proof.Laws

/-- The word of `i` has `i`'s two fields, and they pass both checks of R84. -/
def EncodeWellFormed.Statement (i : Instr) : Prop := RawOp.ofWord (encode i) = i.raw ∧ i.raw.wellFormed = true

/-- A word has the fields it was made of (R80). -/
theorem RawOp_ofWord_toWord (r : RawOp) : RawOp.ofWord r.toWord = r := by
  cases r with
  | mk op d =>
    have ho : BitVec.extractLsb' 8 4 (op ++ d : BitVec (4 + 8)) = op := BitVec.extractLsb'_append_eq_left
    have hd : BitVec.extractLsb' 0 8 (op ++ d : BitVec (4 + 8)) = d := BitVec.extractLsb'_append_eq_right
    exact congr (congrArg RawOp.mk ho) hd

/-- The fields of an operation's word (R80, R82). -/
theorem ofWord_encode (i : Instr) : RawOp.ofWord (encode i) = i.raw := RawOp_ofWord_toWord i.raw

theorem EncodeWellFormed.busAddrRx : EncodeWellFormed.Statement .busAddrRx := ⟨ofWord_encode _, rfl⟩
theorem EncodeWellFormed.busDataRx (d : Byte) : EncodeWellFormed.Statement (.busDataRx d) := ⟨ofWord_encode _, rfl⟩
theorem EncodeWellFormed.busStop : EncodeWellFormed.Statement .busStop := ⟨ofWord_encode _, rfl⟩
theorem EncodeWellFormed.busAddrTx : EncodeWellFormed.Statement .busAddrTx := ⟨ofWord_encode _, rfl⟩
theorem EncodeWellFormed.busDataTx : EncodeWellFormed.Statement .busDataTx := ⟨ofWord_encode _, rfl⟩
theorem EncodeWellFormed.busOther (d : Byte) : EncodeWellFormed.Statement (.busOther d) := ⟨ofWord_encode _, rfl⟩
theorem EncodeWellFormed.reinit (a : BusAddr) : EncodeWellFormed.Statement (.reinit a) :=
  ⟨ofWord_encode _, by simp [Instr.raw, RawOp.wellFormed, RawOp.operandCheck, RawOp.addressCheck]⟩
theorem EncodeWellFormed.dispTake : EncodeWellFormed.Statement .dispTake := ⟨ofWord_encode _, rfl⟩
theorem EncodeWellFormed.dispExec (d : Byte) : EncodeWellFormed.Statement (.dispExec d) := ⟨ofWord_encode _, rfl⟩
theorem EncodeWellFormed.addrFall : EncodeWellFormed.Statement .addrFall := ⟨ofWord_encode _, rfl⟩
theorem EncodeWellFormed.addrTick : EncodeWellFormed.Statement .addrTick := ⟨ofWord_encode _, rfl⟩
theorem EncodeWellFormed.addrCommit : EncodeWellFormed.Statement .addrCommit := ⟨ofWord_encode _, rfl⟩
theorem EncodeWellFormed.addrEmit : EncodeWellFormed.Statement .addrEmit := ⟨ofWord_encode _, rfl⟩
theorem EncodeWellFormed.evtAssert : EncodeWellFormed.Statement .evtAssert := ⟨ofWord_encode _, rfl⟩
theorem EncodeWellFormed.evtRelease : EncodeWellFormed.Statement .evtRelease := ⟨ofWord_encode _, rfl⟩
theorem EncodeWellFormed.evtTick : EncodeWellFormed.Statement .evtTick := ⟨ofWord_encode _, rfl⟩

end Sys2Proof.Laws
end

