-- ==== Sys2Proof/Laws/Run.lean ====
section
/-! SUPPORT. How a run of operations comes apart: its first operation, two runs end to end, and one record an operation. -/

namespace Sys2Proof.Machine

/-- A run completes when its first operation does and the rest does from there. -/
theorem runOps_cons (i : Instr) (is : List Instr) (s t : State) (ts : List TraceRecord) :
    runOps (i :: is) s = some (ts, t) ↔
      ∃ u us, exec i s = .next u ∧ runOps is u = some (us, t) ∧ ts = u.trace :: us := by
  simp only [runOps]
  cases exec i s with
  | next u =>
    simp only [Option.map_eq_some_iff, Prod.mk.injEq, Prod.exists, Host.Outcome.next.injEq]
    constructor
    · rintro ⟨us, t', h, rfl, rfl⟩; exact ⟨u, us, rfl, h, rfl⟩
    · rintro ⟨_, us, rfl, h, rfl⟩; exact ⟨us, t, h, rfl, rfl⟩
  | fault f => simp
  | refused r => simp

/-- Running two lists end to end is running one and then the other. -/
theorem runOps_append (is js : List Instr) (s t : State) (ts : List TraceRecord) :
    runOps (is ++ js) s = some (ts, t) ↔
      ∃ u us vs, runOps is s = some (us, u) ∧ runOps js u = some (vs, t) ∧ ts = us ++ vs := by
  induction is generalizing s ts with
  | nil => simp [runOps]
  | cons i is ih =>
    simp only [List.cons_append, runOps_cons, ih]
    constructor
    · rintro ⟨u, us, h, ⟨v, vs, ws, h', h'', rfl⟩, rfl⟩
      exact ⟨v, u.trace :: vs, ws, ⟨u, vs, h, h', rfl⟩, h'', rfl⟩
    · rintro ⟨v, _, vs, ⟨u, ws, h, h', rfl⟩, h'', rfl⟩
      exact ⟨u, ws ++ vs, h, ⟨v, ws, vs, h', h'', rfl⟩, rfl⟩

/-- A completed run has one trace record for each operation (R40). -/
theorem runOps_length {is : List Instr} {s t : State} {ts : List TraceRecord} (h : runOps is s = some (ts, t)) :
    ts.length = is.length := by
  induction is generalizing s ts with
  | nil => simp only [runOps, Option.some.injEq, Prod.mk.injEq] at h; simp [← h.1]
  | cons i is ih =>
    obtain ⟨u, us, -, h', rfl⟩ := (runOps_cons ..).1 h
    simp [ih h']

end Sys2Proof.Machine
end

