-- ==== Sys2Proof/Laws/Step.lean ====
section
/-! SUPPORT. What a step or a meaning has done, once it has answered a next state: one inversion lemma each, guards
included, for the meanings that branch. -/

namespace Sys2Proof.Machine

/-- The next issued word, taken. -/
theorem fetch_eq (s : State) :
    s.fetch = match s.issued with | [] => none | w :: rest => some (w, { s with issued := rest }) := rfl

/-- A step that answers a next state has waited, or has run one operation. -/
theorem step_cases {s t : State} (h : step s = .next t) :
    (s.issued = [] ∧ t = s.finish .silent) ∨
    ∃ w rest i, s.issued = w :: rest ∧ decode w = .op i ∧ exec i { s with issued := rest } = .next t := by
  unfold step at h
  rw [fetch_eq] at h
  cases hi : s.issued with
  | nil => rw [hi] at h; exact .inl ⟨rfl, (Host.Outcome.next.inj h).symm⟩
  | cons w rest =>
    rw [hi] at h
    cases hd : decode w with
    | op i => exact .inr ⟨w, rest, i, rfl, hd, by simpa [hd] using h⟩
    | reserved e => simp [hd, refuse] at h

/-- BUS_ADDR_RX (R113). -/
theorem execBusAddrRx_cases {s t : State} (h : execBusAddrRx s = .next t) :
    (s.state = .idle ∧ s.qFull = true ∧ t = (s.goto .idle).finish (.response .nack .queueSaturation)) ∨
    (s.state = .idle ∧ s.qFull = false ∧ t = (s.goto .wrc).finish (.response .ack .none)) ∨
    (s.state ≠ .idle ∧ t = (s.goto .idle).finish (.response .ack .busProtocolViolation)) := by
  unfold execBusAddrRx at h
  cases hs : s.state with
  | idle =>
    simp only [hs] at h
    cases hf : s.qFull with
    | true => rw [hf] at h; exact .inl ⟨rfl, rfl, answer_inj h⟩
    | false => rw [hf] at h; exact .inr (.inl ⟨rfl, rfl, answer_inj h⟩)
  | _ => simp only [hs] at h; exact .inr (.inr ⟨by simp, answer_inj h⟩)

/-- BUS_DATA_RX (R117 to R119). -/
theorem execBusDataRx_cases {s t : State} {d : Byte} (h : execBusDataRx d s = .next t) :
    (s.state = .wrc ∧ d = 0x00 ∧ t = (s.goto .idle).finish (.response .nack .invalidFirstByte)) ∨
    (s.state = .wrc ∧ d ≠ 0x00 ∧ t = (State.goto { s with cmdLatch := d } .rc).finish (.response .ack .none)) ∨
    (s.state = .rc ∧ s.qFull = true ∧
      t = (State.goto { s with argLatch := d } .idle).finish (.response .nack .queueSaturation)) ∨
    (s.state = .rc ∧ s.qFull = false ∧
      t = ((State.enqueue { s with argLatch := d } (recordOf s.cmdLatch d)).goto .rab).finish (.response .ack .none)) ∨
    (s.state ≠ .wrc ∧ s.state ≠ .rc ∧ t = (s.goto .idle).finish (.response .nack .busProtocolViolation)) := by
  unfold execBusDataRx at h
  cases hs : s.state with
  | wrc =>
    simp only [hs, State.receiveCommand] at h
    split at h
    · exact .inl ⟨rfl, ‹_›, answer_inj h⟩
    · exact .inr (.inl ⟨rfl, ‹_›, answer_inj h⟩)
  | rc =>
    simp only [hs, State.receiveArgument] at h
    cases hf : s.qFull with
    | true => rw [hf] at h; exact .inr (.inr (.inl ⟨rfl, rfl, answer_inj h⟩))
    | false => rw [hf] at h; exact .inr (.inr (.inr (.inl ⟨rfl, rfl, answer_inj h⟩)))
  | _ => simp only [hs] at h; exact .inr (.inr (.inr (.inr ⟨by simp, by simp, answer_inj h⟩)))

/-- BUS_DATA_TX (R129). -/
theorem execBusDataTx_cases {s t : State} (h : execBusDataTx s = .next t) :
    (s.state = .rrc ∧ t = (s.goto .trv).finish (.response .last .none)) ∨
    (s.state ≠ .rrc ∧ t = (s.goto .idle).finish (.response .ack .busProtocolViolation)) := by
  unfold execBusDataTx at h
  cases hs : s.state with
  | rrc => simp only [hs] at h; exact .inl ⟨rfl, answer_inj h⟩
  | _ => simp only [hs] at h; exact .inr ⟨by simp, answer_inj h⟩

/-- REINIT (R140). -/
theorem execReinit_cases {s t : State} {a : BusAddr} (h : execReinit a s = .next t) :
    s.state = .idle ∧ t = (s.setAddr a).finish .silent := by
  unfold execReinit at h
  split at h
  · exact ⟨‹_›, (Host.Outcome.next.inj h).symm⟩
  · exact absurd h (refuse_ne_next _ _)

/-- DISP_TAKE (R150). -/
theorem execDispTake_cases {s t : State} (h : execDispTake s = .next t) :
    s.inflight = none ∧
    ((s.qEmpty = true ∧ t = s.finish .silent) ∨
     (s.qEmpty = false ∧
      t = State.finish { s with qHead := inc8 s.qHead, inflight := some (s.memRead s.qHead) } .silent)) := by
  unfold execDispTake at h
  cases hi : s.inflight with
  | some r => rw [hi] at h; exact absurd h (refuse_ne_next _ _)
  | none =>
    rw [hi] at h
    cases he : s.qEmpty with
    | true => simp only [he] at h; exact ⟨rfl, .inl ⟨rfl, noEffect_inj h⟩⟩
    | false => simp only [he] at h; exact ⟨rfl, .inr ⟨rfl, (Host.Outcome.next.inj h).symm⟩⟩

/-- DISP_EXEC (R153). -/
theorem execDispExec_cases {s t : State} {a : Byte} (h : execDispExec a s = .next t) :
    ∃ r, s.inflight = some r ∧
    ((isRead s.cfg (recCommand r) = true ∧
      t = State.finish { s with readResult := a, inflight := none } (.readHandler r)) ∨
     (isRead s.cfg (recCommand r) = false ∧ t = State.finish { s with inflight := none } (.writeHandler r))) := by
  unfold execDispExec at h
  cases hi : s.inflight with
  | none => rw [hi] at h; exact absurd h (refuse_ne_next _ _)
  | some r =>
    rw [hi] at h
    refine ⟨r, rfl, ?_⟩
    cases hr : isRead s.cfg (recCommand r) with
    | true => simp only [hr] at h; exact .inl ⟨rfl, (Host.Outcome.next.inj h).symm⟩
    | false => simp only [hr] at h; exact .inr ⟨rfl, (Host.Outcome.next.inj h).symm⟩

/-- ADDR_TICK (R174). -/
theorem execAddrTick_cases {s t : State} (h : execAddrTick s = .next t) :
    (s.burstArmed = false ∧ t = s.finish .silent) ∨
    (s.burstArmed = true ∧ s.burstTicks + 1 < s.cfg.nBurst ∧
      t = State.finish { s with burstTicks := s.burstTicks + 1 } .silent) ∨
    (s.burstArmed = true ∧ s.cfg.nBurst ≤ s.burstTicks + 1 ∧ t = s.completeBurst) := by
  unfold execAddrTick at h
  cases ha : s.burstArmed with
  | false => rw [ha] at h; exact .inl ⟨rfl, noEffect_inj h⟩
  | true =>
    rw [ha] at h
    simp only [Bool.true_eq_false, if_false] at h
    split at h
    · exact .inr (.inl ⟨rfl, ‹_›, (Host.Outcome.next.inj h).symm⟩)
    · exact .inr (.inr ⟨rfl, by omega, (Host.Outcome.next.inj h).symm⟩)

/-- ADDR_COMMIT (R180). -/
theorem execAddrCommit_cases {s t : State} (h : execAddrCommit s = .next t) :
    ((s.assignPending = none ∨ s.state ≠ .idle) ∧ t = s.finish .silent) ∨
    ∃ n, s.assignPending = some n ∧ s.state = .idle ∧ t = s.commitAssignment n := by
  unfold execAddrCommit at h
  cases hp : s.assignPending with
  | none => rw [hp] at h; exact .inl ⟨.inl rfl, noEffect_inj h⟩
  | some n =>
    rw [hp] at h
    by_cases hs : s.state = .idle
    · simp only [hs, if_true] at h; exact .inr ⟨n, rfl, hs, (Host.Outcome.next.inj h).symm⟩
    · simp only [hs, if_false] at h; exact .inl ⟨.inr hs, noEffect_inj h⟩

/-- ADDR_EMIT (R186). -/
theorem execAddrEmit_cases {s t : State} (h : execAddrEmit s = .next t) :
    (s.emitRemaining = 0 ∧ t = s.finish .silent) ∨
    (s.emitRemaining ≠ 0 ∧ t = State.finish { s with emitRemaining := s.emitRemaining - 1 }
      { TraceRecord.silent with addrOutPulse := true }) := by
  unfold execAddrEmit at h
  split at h
  · exact .inl ⟨‹_›, noEffect_inj h⟩
  · exact .inr ⟨‹_›, (Host.Outcome.next.inj h).symm⟩

/-- EVT_TICK (R206). -/
theorem execEvtTick_cases {s t : State} (h : execEvtTick s = .next t) :
    (s.evtArmed = false ∧ t = s.finish .silent) ∨
    (s.evtArmed = true ∧ s.evtTicks + 1 < s.cfg.mEvt ∧
      t = State.finish { s with evtTicks := s.evtTicks + 1 } .silent) ∨
    (s.evtArmed = true ∧ s.cfg.mEvt ≤ s.evtTicks + 1 ∧
      t = s.releaseEvt.finish { TraceRecord.silent with cause := .timeoutAbandonment }) := by
  unfold execEvtTick at h
  cases ha : s.evtArmed with
  | false => rw [ha] at h; exact .inl ⟨rfl, noEffect_inj h⟩
  | true =>
    rw [ha] at h
    simp only [Bool.true_eq_false, if_false] at h
    split at h
    · exact .inr (.inl ⟨rfl, ‹_›, (Host.Outcome.next.inj h).symm⟩)
    · exact .inr (.inr ⟨rfl, by omega, (Host.Outcome.next.inj h).symm⟩)

end Sys2Proof.Machine
end

