-- ==== Sys2Proof/Tests/Slice0.lean ====
section
/-! SUPPORT. Tests: the checks of the encoding on ill-formed words, every operation's word written out from R82, vectors of
95_test_vectors.md (their ids stand in the comments), and for every statement with hypotheses a witness that meets them. -/

namespace Sys2Proof.Tests

open Sys2Proof.Machine

-- ---------------------------------------------------------------- the encoding

theorem test_operand_check_refuses_stop : (RawOp.mk 0x2 0x80).operandCheck = false := by decide
theorem test_operand_check_refuses_tick : (RawOp.mk 0xF 0xFF).wellFormed = false := by decide
theorem test_address_check_refuses_bit_seven : (RawOp.mk 0x6 0xAB).addressCheck = false := by decide
theorem test_address_check_only_reinit : (RawOp.mk 0x1 0xFF).wellFormed = true := by decide

-- the reserved words of 95_test_vectors.md section 2.1
theorem test_reserved_words :
    decode 0x001 = .reserved (.operandNotZero 0x0 0x01) ∧ decode 0x0FF = .reserved (.operandNotZero 0x0 0xFF) ∧
    decode 0x280 = .reserved (.operandNotZero 0x2 0x80) ∧ decode 0x680 = .reserved (.addressBitSeven 0x80) ∧
    decode 0x6FF = .reserved (.addressBitSeven 0xFF) ∧ decode 0x701 = .reserved (.operandNotZero 0x7 0x01) ∧
    decode 0x9FF = .reserved (.operandNotZero 0x9 0xFF) ∧ decode 0xE01 = .reserved (.operandNotZero 0xE 0x01) := by decide

-- R80, R82: op in bits 11 to 8, the data byte in bits 7 to 0
theorem test_decode_bus_addr_rx : decode 0b000000000000#12 = .op .busAddrRx := by decide
theorem test_decode_bus_data_rx : decode 0b000101010011#12 = .op (.busDataRx 0x53) := by decide
theorem test_decode_bus_stop : decode 0b001000000000#12 = .op .busStop := by decide
theorem test_decode_bus_addr_tx : decode 0b001100000000#12 = .op .busAddrTx := by decide
theorem test_decode_bus_data_tx : decode 0b010000000000#12 = .op .busDataTx := by decide
theorem test_decode_bus_other : decode 0b010111000000#12 = .op (.busOther 0xC0) := by decide
theorem test_decode_reinit : decode 0b011000101011#12 = .op (.reinit 0x2B) := by decide
theorem test_decode_disp_take : decode 0b011100000000#12 = .op .dispTake := by decide
theorem test_decode_disp_exec : decode 0b100011111110#12 = .op (.dispExec 0xFE) := by decide
theorem test_decode_addr_fall : decode 0b100100000000#12 = .op .addrFall := by decide
theorem test_decode_addr_tick : decode 0b101000000000#12 = .op .addrTick := by decide
theorem test_decode_addr_commit : decode 0b101100000000#12 = .op .addrCommit := by decide
theorem test_decode_addr_emit : decode 0b110000000000#12 = .op .addrEmit := by decide
theorem test_decode_evt_assert : decode 0b110100000000#12 = .op .evtAssert := by decide
theorem test_decode_evt_release : decode 0b111000000000#12 = .op .evtRelease := by decide
theorem test_decode_evt_tick : decode 0b111100000000#12 = .op .evtTick := by decide

theorem test_table_word_too_long : decodeTableWord 16 0x1153 = none := by decide

-- ---------------------------------------------------------------- one operation, from the spec's start state S0

/-- The parameters of S0 (95_test_vectors.md). -/
def c0 : Config where
  readSet := #v[0x47, 0x00, 0x00, 0x00, 0x00, 0x00, 0x00, 0x00]
  deviceClass := 0x5
  bootAddress := 0x10
  nBurst := 3
  mEvt := 4

/-- S0 of 95_test_vectors.md; its slots hold 0xEEEE, a value no vector names. -/
def S0 : State := State.resetOf c0 (Vector.replicate 8 0xEEEE)

/-- One step on one issued word: the next state, if there is one. -/
def after (w : Word) (s : State) : Option State :=
  match step { s with issued := [w] } with
  | .next t => some t
  | .fault _ => none
  | .refused _ => none

/-- One step on one issued word: why it is refused, if it is. -/
def refusal (w : Word) (s : State) : Option Refusal :=
  match step { s with issued := [w] } with
  | .next _ => none
  | .fault _ => none
  | .refused r => some r

/-- The engine state, the response and the cause a bus event leaves. -/
def answerOf (w : Word) (s : State) : Option (BusState × Option BusResp × Cause) :=
  (after w s).map fun t => (t.state, t.trace.busResp, t.trace.cause)

-- B-2, B-9
theorem test_addr_rx_full : answerOf 0x000 { S0 with qTail := 7 } = some (.idle, some .nack, .queueSaturation) := by decide
theorem test_addr_rx_mid_command :
    answerOf 0x000 { S0 with state := .wrc } = some (.idle, some .ack, .busProtocolViolation) := by decide
-- Q-1, B-11
theorem test_data_rx_wraps :
    (after 0x1A0 { S0 with state := .rc, cmdLatch := 0x53, qHead := 3, qTail := 7 }).map
      (fun t => (t.qTail, t.memRead 7, t.argLatch)) = some (0, 0x53A0, 0xA0) := by decide
theorem test_data_rx_ping :
    answerOf 0x100 { S0 with state := .wrc } = some (.idle, some .nack, .invalidFirstByte) := by decide
-- B-27
theorem test_stop : answerOf 0x200 { S0 with state := .rab } = some (.idle, some .ack, .none) := by decide
-- B-14
theorem test_addr_tx :
    (after 0x300 { S0 with state := .wrc, readResult := 0x01, evtLine := true, evtArmed := true, evtTicks := 2 }).map
      (fun t => (t.trace.busTx, t.readResult, t.evtLine, t.evtArmed, t.evtTicks)) =
    some (some 0x01, 0x00, false, false, 0) := by decide
theorem test_addr_tx_answers : answerOf 0x300 { S0 with state := .wrc } = some (.rrc, some .last, .none) := by decide
-- B-36, B-43
theorem test_data_tx : answerOf 0x400 { S0 with state := .rrc } = some (.trv, some .last, .none) := by decide
theorem test_data_tx_again :
    answerOf 0x400 { S0 with state := .trv } = some (.idle, some .ack, .busProtocolViolation) := by decide
-- B-51
theorem test_other : answerOf 0x5C0 { S0 with state := .unused6 } = some (.idle, some .ack, .busProtocolViolation) := by decide
-- RI-3, RI-5
theorem test_reinit : (after 0x67F S0).map (·.ownAddr) = some 0x7F := by decide
theorem test_reinit_mid_transaction : refusal 0x62B { S0 with state := .wrc } = some .reinitMidTransaction := by decide
-- D-3, D-4
theorem test_take_wraps :
    (after 0x700 { S0 with qHead := 7, qTail := 1,
                           q := #v[0x4702, 0, 0, 0, 0, 0, 0, 0x530F] }).map (fun t => (t.qHead, t.inflight)) =
    some (0, some 0x530F) := by decide
theorem test_take_twice : refusal 0x700 { S0 with inflight := some 0x5381 } = some .twoInFlight := by decide
-- D-9, and the byte after the terminator (section 2.5)
theorem test_exec_read :
    (after 0x8FF { S0 with inflight := some 0x4702, readResult := 0x55 }).map
      (fun t => (t.readResult, t.inflight, t.trace.readCall, t.trace.liveness)) =
    some (0xFF, none, some (0x47, 0x02), true) := by decide
theorem test_exec_after_terminator :
    (after 0x801 { S0 with cfg := { c0 with readSet := #v[0x47, 0x00, 0x52, 0, 0, 0, 0, 0] },
                           inflight := some 0x5200 }).map (fun t => (t.readResult, t.trace.writeCall)) =
    some (0x00, some (0x52, 0x00)) := by decide
-- A-2, A-3
theorem test_fall :
    (after 0x900 { S0 with pulseCount := 5, burstArmed := true, burstTicks := 1 }).map
      (fun t => (t.pulseCount, t.burstTicks)) = some (6, 0) := by decide
theorem test_fall_saturates :
    (after 0x900 { S0 with pulseCount := 255, burstArmed := true }).map (·.pulseCount) = some 255 := by decide
-- A-12, A-10
theorem test_tick_completes :
    (after 0xA00 { S0 with pulseCount := 4, burstArmed := true, burstTicks := 2, assignPending := some 6 }).map
      (fun t => (t.pulseCount, t.burstArmed, t.assignPending)) = some (0, false, some 4) := by decide
theorem test_tick_noise :
    (after 0xA00 { S0 with pulseCount := 255, burstArmed := true, burstTicks := 2 }).map
      (fun t => (t.pulseCount, t.assignPending, t.trace.cause)) = some (0, none, .addressingNoise) := by decide
-- A-18, A-14
theorem test_commit :
    (after 0xB00 { S0 with assignPending := some 254 }).map
      (fun t => (t.ownAddr, t.emitRemaining, t.trace.persistReq, t.trace.assigned)) =
    some (0x2F, 256, some 0x2F, some 127) := by decide
theorem test_commit_held :
    (after 0xB00 { S0 with assignPending := some 6, state := .wrc }).map
      (fun t => (t.ownAddr, t.assignPending)) = some (0x10, some 6) := by decide
-- A-22, A-23
theorem test_emit :
    (after 0xC00 { S0 with emitRemaining := 1 }).map (fun t => (t.emitRemaining, t.trace.addrOutPulse, t.addrOut)) =
    some (0, true, false) := by decide
theorem test_emit_nothing : (after 0xC00 S0).map (fun t => (t.emitRemaining, t.addrOut)) = some (0, true) := by decide
-- E-2
theorem test_assert_restarts :
    (after 0xD00 { S0 with evtLine := true, evtArmed := true, evtTicks := 3 }).map
      (fun t => (t.evtLine, t.evtArmed, t.evtTicks)) = some (true, true, 0) := by decide
-- E-3
theorem test_release :
    (after 0xE00 { S0 with evtLine := true, evtArmed := true, evtTicks := 2 }).map
      (fun t => (t.evtLine, t.evtArmed, t.evtTicks)) = some (false, false, 0) := by decide
-- E-6, E-7
theorem test_evt_tick :
    (after 0xF00 { S0 with evtLine := true, evtArmed := true, evtTicks := 2 }).map
      (fun t => (t.evtLine, t.evtTicks)) = some (true, 3) := by decide
theorem test_evt_expiry :
    (after 0xF00 { S0 with evtLine := true, evtArmed := true, evtTicks := 3 }).map
      (fun t => (t.evtLine, t.evtArmed, t.trace.cause)) = some (false, false, .timeoutAbandonment) := by decide
-- 1.3: the address formula
theorem test_device_address : deviceAddress 0xF 7 = 0x7F ∧ deviceAddress 0x5 8 = 0x28 := by decide
-- R88
theorem test_text_char : assembleText "bus.data_rx 'S' ; command" = some (.busDataRx 0x53) := by decide
theorem test_text_trace :
    readTrace ["; start", "", "addr.fall", "reinit 0x2B"] = some [.addrFall, .reinit 0x2B] := by decide
-- R89
theorem test_text_pseudo : readPseudo "bus.write 0x53, 0x81" = some (.busWrite 0x53 0x81) := by decide

-- ---------------------------------------------------------------- witnesses: reset, decoding, stepping

theorem witness_ResetSetsEveryRegister : ∃ c slots s, s = State.resetOf c slots ∧ c.wf = true :=
  ⟨c0, Vector.replicate 8 0, _, rfl, by decide⟩

theorem witness_DecodeFollowsFields :
    (∃ w : Word, w.extractLsb' 8 4 = 0x6 ∧ (w.extractLsb' 0 8).getLsbD 7 = true) ∧
    (∃ w : Word, w.extractLsb' 8 4 = 0x6 ∧ (w.extractLsb' 0 8).getLsbD 7 = false) ∧
    (∃ w : Word, w.extractLsb' 8 4 = 0x1) ∧ (∃ w : Word, w.extractLsb' 8 4 = 0x5) ∧
    (∃ w : Word, w.extractLsb' 8 4 = 0x8) ∧
    (∃ w : Word, w.extractLsb' 8 4 ≠ 0x6 ∧ w.extractLsb' 8 4 ≠ 0x1 ∧ w.extractLsb' 8 4 ≠ 0x5 ∧
      w.extractLsb' 8 4 ≠ 0x8 ∧ w.extractLsb' 0 8 ≠ 0x00) ∧
    (∀ op ∈ [0x0, 0x2, 0x3, 0x4, 0x7, 0x9, 0xA, 0xB, 0xC, 0xD, 0xE, 0xF],
      ∃ w : Word, w.extractLsb' 8 4 = op ∧ w.extractLsb' 0 8 = 0x00) := by
  refine ⟨⟨0x680, by decide⟩, ⟨0x67F, by decide⟩, ⟨0x1FF, by decide⟩, ⟨0x500, by decide⟩, ⟨0x8FF, by decide⟩,
    ⟨0x001, by decide⟩, ?_⟩
  intro op _
  exact ⟨op ++ (0x00 : Byte), by revert op; decide, by revert op; decide⟩

theorem witness_DecodeEncodeAgree : decode 0x67F = .op (.reinit 0x7F) := by decide

theorem witness_DecodeFollowsOpTable :
    decode 0x6FF = .reserved (.addressBitSeven 0xFF) ∧ decode 0x67F = .op (.reinit 0x7F) ∧
    ⟨"REINIT", 0x600, 0xF80⟩ ∈ opTable := by decide

theorem witness_ReservedWords :
    (0x0 : BitVec 4) ∈ [(0x0 : BitVec 4), 0x2, 0x3, 0x4, 0x7, 0x9, 0xA, 0xB, 0xC, 0xD, 0xE, 0xF] ∧
    (0x680 : Word).extractLsb' 8 4 = 0x6 ∧ (0x67F : Word).extractLsb' 8 4 = 0x6 := by decide

theorem witness_StepRunsTheIssuedWord :
    (∃ (s : State) (w : Word) (rest : List Word) (i : Instr), s.issued = w :: rest ∧ decode w = .op i) ∧
    (∃ (s : State) (w : Word) (rest : List Word) (e : Reserved), s.issued = w :: rest ∧ decode w = .reserved e) ∧
    (∃ s : State, s.issued = []) :=
  ⟨⟨{ S0 with issued := [0x8FF, 0x001] }, 0x8FF, [0x001], .dispExec 0xFF, rfl, by decide⟩,
   ⟨{ S0 with issued := [0x680] }, 0x680, [], .addressBitSeven 0x80, rfl, by decide⟩, ⟨S0, rfl⟩⟩

theorem witness_PlacedWordRunsNext : decodeTableWord 12 0x67F = some (.reinit 0x7F) := by decide

theorem witness_IssuedWordsRunInOrder :
    ∃ (is : List Instr) (rest : List Word) (s t : State), s.issued = is.map encode ++ rest ∧
      Host.Core.run Sys2Proof.core is.length s = .next t ∧ is.length = 2 ∧ rest ≠ [] :=
  ⟨[.busAddrRx, .busDataRx 0x53], [0x001], { S0 with issued := [0x000, 0x153, 0x001] }, _, by decide, rfl, rfl, by decide⟩

-- ---------------------------------------------------------------- witnesses: the operations' results

theorem witness_BusAddrRxResult :
    (∃ s : State, s.state = .idle ∧ s.qFull = true ∧ s.qCount = 7) ∧
    (∃ s : State, s.state = .idle ∧ s.qFull = false ∧ s.qCount = 6) ∧ (∃ s : State, s.state ≠ .idle) :=
  ⟨⟨{ S0 with qHead := 4, qTail := 3 }, by decide⟩, ⟨{ S0 with qHead := 1, qTail := 7 }, by decide⟩,
   ⟨{ S0 with state := .unused7 }, by decide⟩⟩

theorem witness_CommandByteResult :
    ∃ s : State, s.state = .wrc ∧ (∃ d : Byte, d = 0x00) ∧ (∃ d : Byte, d ≠ 0x00) :=
  ⟨{ S0 with state := .wrc }, rfl, ⟨0x00, rfl⟩, ⟨0x01, by decide⟩⟩

theorem witness_ArgumentByteResult :
    (∃ s : State, s.state = .rc ∧ s.qFull = true) ∧ (∃ s : State, s.state = .rc ∧ s.qFull = false ∧ s.qCount = 6) :=
  ⟨⟨{ S0 with state := .rc, qTail := 7 }, by decide⟩, ⟨{ S0 with state := .rc, qHead := 3, qTail := 1 }, by decide⟩⟩

theorem witness_UnexpectedByteResult : ∃ s : State, s.state ≠ .wrc ∧ s.state ≠ .rc :=
  ⟨{ S0 with state := .rab }, by decide⟩

theorem witness_BusDataTxResult : (∃ s : State, s.state = .rrc) ∧ (∃ s : State, s.state ≠ .rrc) :=
  ⟨⟨{ S0 with state := .rrc }, rfl⟩, ⟨{ S0 with state := .trv }, by decide⟩⟩

theorem witness_ReinitResult : (∃ s : State, s.state = .idle) ∧ (∃ s : State, s.state ≠ .idle) :=
  ⟨⟨S0, rfl⟩, ⟨{ S0 with state := .rrc }, by decide⟩⟩

theorem witness_DispTakeResult :
    (∃ s : State, s.inflight ≠ none) ∧ (∃ s : State, s.inflight = none ∧ s.qHead = s.qTail) ∧
    (∃ s : State, s.inflight = none ∧ s.qHead ≠ s.qTail ∧ s.qHead = 7) :=
  ⟨⟨{ S0 with inflight := some 0x0000 }, by decide⟩, ⟨S0, by decide⟩, ⟨{ S0 with qHead := 7 }, by decide⟩⟩

theorem witness_DispExecResult :
    (∃ s : State, s.inflight = none) ∧
    (∃ (s : State) (c a : Byte), s.inflight = some (c ++ a : Slot) ∧ isRead s.cfg c = true) ∧
    (∃ (s : State) (c a : Byte), s.inflight = some (c ++ a : Slot) ∧ isRead s.cfg c = false) :=
  ⟨⟨S0, rfl⟩, ⟨{ S0 with inflight := some 0x4702 }, 0x47, 0x02, by decide⟩,
   ⟨{ S0 with inflight := some 0x0001 }, 0x00, 0x01, by decide⟩⟩

theorem witness_ReadClassification :
    (isRead c0 0x47 = true ∧ isRead c0 0x00 = false ∧ isRead c0 0x53 = false) ∧
    (∃ t, exec .busStop S0 = .next t ∧ ∀ r, Instr.busStop ≠ .dispExec r) ∧
    (∃ e, exec (.reinit 0x2B) { S0 with state := .wrc } = .refused e ∧ ∀ r, Instr.reinit 0x2B ≠ .dispExec r) :=
  ⟨by decide, ⟨_, rfl, fun _ h => by cases h⟩, ⟨_, rfl, fun _ h => by cases h⟩⟩

theorem witness_AddrFallResult : (∃ s : State, s.pulseCount ≠ 255) ∧ (∃ s : State, s.pulseCount = 255) :=
  ⟨⟨{ S0 with pulseCount := 254 }, by decide⟩, ⟨{ S0 with pulseCount := 255 }, rfl⟩⟩

theorem witness_AddrTickResult :
    (∃ s : State, s.burstArmed = false) ∧ (∃ s : State, s.burstArmed = true ∧ s.burstTicks + 2 = s.cfg.nBurst) ∧
    (∃ s : State, s.burstArmed = true ∧ s.burstTicks + 1 = s.cfg.nBurst ∧ s.pulseCount ≠ 0 ∧
      s.pulseCount.getLsbD 0 = false) ∧
    (∃ s : State, s.burstArmed = true ∧ s.burstTicks + 1 = s.cfg.nBurst ∧ s.pulseCount = 0) ∧
    (∃ s : State, s.burstArmed = true ∧ s.burstTicks + 1 = s.cfg.nBurst ∧ s.pulseCount.getLsbD 0 = true) :=
  ⟨⟨S0, rfl⟩, ⟨{ S0 with burstArmed := true, burstTicks := 1 }, by decide⟩,
   ⟨{ S0 with burstArmed := true, burstTicks := 2, pulseCount := 254 }, by decide⟩,
   ⟨{ S0 with burstArmed := true, burstTicks := 2 }, by decide⟩,
   ⟨{ S0 with burstArmed := true, burstTicks := 2, pulseCount := 255 }, by decide⟩⟩

theorem witness_AddrCommitResult :
    (∃ s : State, s.assignPending = none) ∧ (∃ s : State, s.state ≠ .idle ∧ s.assignPending ≠ none) ∧
    (∃ (s : State) (n : Byte), s.assignPending = some n ∧ s.state = .idle ∧ n = 254) :=
  ⟨⟨S0, rfl⟩, ⟨{ S0 with state := .wrc, assignPending := some 6 }, by decide⟩,
   ⟨{ S0 with assignPending := some 254 }, 254, by decide⟩⟩

theorem witness_AddrEmitResult : (∃ s : State, s.emitRemaining = 0) ∧ (∃ s : State, s.emitRemaining ≠ 0) :=
  ⟨⟨S0, rfl⟩, ⟨{ S0 with emitRemaining := 1 }, by decide⟩⟩

theorem witness_EvtAssertResult : ∃ t, exec .evtAssert S0 = .next t := ⟨_, rfl⟩

theorem witness_EvtTickResult :
    (∃ s : State, s.evtArmed = false) ∧ (∃ s : State, s.evtArmed = true ∧ s.evtTicks + 2 = s.cfg.mEvt) ∧
    (∃ s : State, s.evtArmed = true ∧ s.evtTicks + 1 = s.cfg.mEvt) :=
  ⟨⟨S0, rfl⟩, ⟨{ S0 with evtArmed := true, evtTicks := 2 }, by decide⟩,
   ⟨{ S0 with evtArmed := true, evtTicks := 3 }, by decide⟩⟩

-- ---------------------------------------------------------------- witnesses: the whole machine

/-- A register without a mark; then a slot that is not the tail's, the tail's slot in a full queue, and the tail's slot
under another operation. -/
theorem witness_OnlyMarkedRegistersChange :
    ((∃ t, exec (.dispExec 0x01) { S0 with inflight := some 0x4702 } = .next t) ∧
      mayWrite (.dispExec 0x01) .evtLine = false) ∧
    (∃ (s t : State) (k : SlotIdx), exec (.busDataRx 0x81) s = .next t ∧ s.state = .rc ∧ s.qFull = false ∧
      k ≠ s.qTail ∧ k = s.qTail - 1) ∧
    (∃ s t : State, exec (.busDataRx 0x81) s = .next t ∧ s.state = .rc ∧ ¬s.qFull = false) ∧
    (∃ s t : State, exec .dispTake s = .next t ∧ s.state = .rc ∧ s.qFull = false ∧
      ¬∃ d, Instr.dispTake = .busDataRx d) :=
  ⟨⟨⟨_, rfl⟩, rfl⟩, ⟨{ S0 with state := .rc }, _, 7, rfl, by decide⟩,
   ⟨{ S0 with state := .rc, qTail := 7 }, _, rfl, by decide⟩,
   ⟨{ S0 with state := .rc, qTail := 6 }, _, rfl, rfl, by decide, fun ⟨_, h⟩ => by cases h⟩⟩

/-- Two states that differ in a register BUS_STOP has no R mark for. -/
theorem witness_OnlyMarkedRegistersAreRead :
    ∃ s s' : State, s.cfg = s'.cfg ∧ (∀ r, mayRead .busStop r = true → r.value s = r.value s') ∧
      Reg.value .cmdLatch s ≠ Reg.value .cmdLatch s' ∧ ∃ t, exec .busStop s = .next t :=
  ⟨S0, { S0 with cmdLatch := 0x53 }, rfl, fun _ h => by simp [mayRead] at h, by decide, _, rfl⟩

theorem witness_RefusedExactlyWhenSaid :
    refusal 0x700 { S0 with inflight := some 0 } = some .twoInFlight ∧ refusal 0x800 S0 = some .nothingInFlight ∧
    refusal 0x600 { S0 with state := .rrc } = some .reinitMidTransaction ∧ (after 0x600 S0).isSome = true := by decide

theorem witness_InterruptOperationsComplete : contextOf (agentOf .evtTick) = .interrupt := by decide

theorem witness_OutputsDrivenByOperation :
    (∃ t, exec .addrCommit { S0 with assignPending := some 6 } = .next t) ∧
    (∃ t, exec (.dispExec 0x01) { S0 with inflight := some 0x5300 } = .next t) ∧
    (∃ t, exec .addrEmit { S0 with emitRemaining := 1 } = .next t) ∧ ∃ t, exec .busAddrTx S0 = .next t :=
  ⟨⟨_, rfl⟩, ⟨_, rfl⟩, ⟨_, rfl⟩, ⟨_, rfl⟩⟩

theorem witness_CausesRaisedExactly :
    (answerOf 0x110 S0).map (·.2.2) = some .busProtocolViolation ∧
    (answerOf 0x000 { S0 with qTail := 7 }).map (·.2.2) = some .queueSaturation ∧
    (answerOf 0x100 { S0 with state := .wrc }).map (·.2.2) = some .invalidFirstByte ∧
    (answerOf 0xA00 { S0 with burstArmed := true, burstTicks := 2 }).map (·.2.2) = some .addressingNoise ∧
    (answerOf 0xF00 { S0 with evtArmed := true, evtTicks := 3 }).map (·.2.2) = some .timeoutAbandonment := by decide

theorem witness_InvariantAtReset : c0.wf = true := by decide

/-- The engine waits for an argument byte, six records are queued, an event timer is about to expire. -/
def sRc : State :=
  { S0 with state := .rc, cmdLatch := 0x53, qTail := 6, q := Vector.replicate 8 0x5300, evtLine := true,
            evtArmed := true, evtTicks := 3, issued := [0x100] }

theorem sRc_queued : queued sRc = [0x5300, 0x5300, 0x5300, 0x5300, 0x5300, 0x5300] := by decide

theorem sRc_inv : Inv sRc where
  cfg_wf := by decide
  state_named := ⟨by decide, by decide⟩
  write_room := fun _ => by decide
  command_latched := fun _ => by decide
  queued_nonzero := by
    rw [sRc_queued]
    intro r hr
    obtain rfl : r = 0x5300 := by simpa using hr
    decide
  inflight_nonzero := by simp [sRc, S0, State.resetOf]
  burst_stopped := fun _ => ⟨rfl, rfl⟩
  burst_counted := fun h => by cases h
  burst_range := by decide
  pending_valid := by simp [sRc, S0, State.resetOf]
  emit_range := by decide
  line_timed := rfl
  evt_stopped := fun h => by cases h
  evt_range := by decide

theorem witness_StepKeepsInvariant : ∃ t, Inv sRc ∧ step sRc = .next t := ⟨_, sRc_inv, rfl⟩

theorem witness_ArgumentNeverRefused :
    ∃ t, Inv sRc ∧ sRc.state = .rc ∧ exec (.busDataRx 0x00) sRc = .next t ∧ sRc.qCount = 6 :=
  ⟨_, sRc_inv, rfl, rfl, by decide⟩

-- ---------------------------------------------------------------- witnesses: the queue and runs

/-- Two records in the queue, the second in slot 0. -/
def sTwo : State := { S0 with qHead := 7, qTail := 1, q := #v[0x4702, 0, 0, 0, 0, 0, 0, 0x530F] }

theorem witness_QueueCountLaws :
    S0.qEmpty = true ∧ ({ S0 with qHead := 4, qTail := 3 } : State).qFull = true ∧ queued sTwo = [0x530F, 0x4702] := by decide

theorem witness_EnqueueAndDequeueCommute :
    ∃ s : State, s.state = .rc ∧ s.qFull = false ∧ s.qEmpty = false ∧ s.inflight = none ∧ s.qCount = 6 :=
  ⟨sRc, by decide⟩

theorem witness_RingRefinesFifo :
    (∃ t, exec (.busDataRx 0x00) sRc = .next t) ∧ (∃ t, exec .dispTake S0 = .next t ∧ queued S0 = []) ∧
    (∃ t, exec .dispTake sTwo = .next t ∧ queued sTwo = 0x530F :: [0x4702]) :=
  ⟨⟨_, rfl⟩, ⟨_, rfl, by decide⟩, ⟨_, rfl, by decide⟩⟩

theorem witness_FifoConservation :
    ∃ ts t, runOps [.busDataRx 0x81, .dispTake, .dispExec 0x00] { sTwo with state := .rc, cmdLatch := 0x53 } =
      some (ts, t) := ⟨_, _, rfl⟩

theorem witness_OccupiedSlotsKept : ∃ t, exec .dispTake sTwo = .next t ∧ 1 < sTwo.qCount := ⟨_, rfl, by decide⟩

theorem witness_StalledLoopAcceptsSeven :
    ∃ ts t, Instr.dispTake ∉ [Instr.busAddrRx, .busDataRx 0x53, .busDataRx 0x00, .busStop] ∧
      runOps [.busAddrRx, .busDataRx 0x53, .busDataRx 0x00, .busStop] { S0 with qTail := 6 } = some (ts, t) :=
  ⟨_, _, by decide, rfl⟩

theorem witness_CommandCameFromItsTransaction :
    (∃ ts t, S0.state = .idle ∧ runOps [.busAddrRx] S0 = some (ts, t) ∧ t.state = .wrc) ∧
    (∃ ts t, runOps [.busStop, .busAddrRx, .evtTick, .busDataRx 0x01] S0 = some (ts, t) ∧ t.state = .rc) :=
  ⟨⟨_, _, rfl, rfl, rfl⟩, ⟨_, _, rfl, rfl⟩⟩

theorem witness_WriteTransactionEnqueuesOnce :
    ∃ (s : State) (c : Byte), s.state = .idle ∧ s.qFull = false ∧ s.qCount = 6 ∧ c ≠ 0x00 :=
  ⟨{ S0 with qHead := 1, qTail := 7 }, 0x01, by decide⟩

theorem witness_DrainEmptiesQueue :
    (∃ (s : State) (answers : List Byte), s.inflight = none ∧ answers.length = s.qCount ∧ s.qCount = 7) ∧
    (∃ (s : State) (answers : List Byte), s.inflight = none ∧ answers.length = s.qCount ∧ s.qCount = 0) :=
  ⟨⟨{ S0 with qTail := 7 }, [1, 2, 3, 4, 5, 6, 7], by decide⟩, ⟨S0, [], by decide⟩⟩

theorem witness_ReadResultConsumedOnce :
    (∃ ts t, (∀ r, Instr.dispExec r ∉ [Instr.busStop]) ∧ runOps [.busStop] { S0 with readResult := 0x55 } = some (ts, t) ∧
      Instr.busAddrTx ∉ [Instr.busStop] ∧ ∃ u, exec .busAddrTx t = .next u) ∧
    (∃ ts t, (∀ r, Instr.dispExec r ∉ [Instr.busAddrTx]) ∧
      runOps [.busAddrTx] { S0 with readResult := 0x55 } = some (ts, t) ∧
      Instr.busAddrTx ∈ [Instr.busAddrTx] ∧ ∃ u, exec .busAddrTx t = .next u) :=
  ⟨⟨_, _, by simp, rfl, by decide, _, rfl⟩, ⟨_, _, by simp, rfl, by decide, _, rfl⟩⟩

theorem witness_ValidBurstAssigns :
    S0.cfg.wf = true ∧ S0.state = .idle ∧ S0.pulseCount = 0 ∧ 2 % 2 = 0 ∧ 2 ≤ 2 ∧ 254 % 2 = 0 ∧ 254 ≤ 254 := by decide

theorem witness_NoisyBurstIgnored :
    S0.cfg.wf = true ∧ S0.pulseCount = 0 ∧ S0.assignPending = none ∧ S0.emitRemaining = 0 ∧ 253 % 2 = 1 ∧ 255 ≤ 255 := by
  decide

theorem witness_ChainHandsOnNextIndex :
    ∃ (a b : State) (j : Nat), a.cfg.wf = true ∧ b.cfg.wf = true ∧ a.state = .idle ∧ b.state = .idle ∧
      a.pulseCount = 0 ∧ b.pulseCount = 0 ∧ 1 ≤ j ∧ 2 * j + 2 = 254 :=
  ⟨S0, { S0 with cfg := { c0 with nBurst := 1, deviceClass := 0xF } }, 126, by decide⟩

theorem witness_EventLineTimesOut :
    (∃ ts t, S0.cfg.wf = true ∧ runOps [.evtAssert, .evtTick, .evtTick, .evtTick] S0 = some (ts, t) ∧
      [Instr.evtTick, .evtTick, .evtTick].count .evtTick < S0.cfg.mEvt) ∧
    (∃ ts t, runOps [.evtAssert, .evtTick, .evtTick, .busStop, .evtTick, .evtTick] S0 = some (ts, t) ∧
      S0.cfg.mEvt ≤ [Instr.evtTick, .evtTick, .busStop, .evtTick, .evtTick].count .evtTick) :=
  ⟨⟨_, _, by decide, rfl, by decide⟩, ⟨_, _, rfl, by decide⟩⟩

theorem witness_QuiescentPollsDoNothing : S0.quiescent = true ∧ ({ S0 with state := .rrc } : State).quiescent = true := by
  decide

theorem witness_TextReadsBack : 0x7F < (0x80 : Byte).toNat := by decide

-- ---------------------------------------------------------------- witnesses: fair runs

/-- An unending run from `s` whose operations after the third are all `i`. -/
def ops3 (a b i : Instr) : Nat → Instr
  | 0 => a
  | 1 => b
  | _ => i

/-- The states of such a run, given the first three and the one it stays in. -/
def run3 (s0 s1 s2 s3 : State) : Nat → State
  | 0 => s0
  | 1 => s1
  | 2 => s2
  | _ => s3

theorem isRun3 {a b i : Instr} {s0 s1 s2 s3 : State} (h0 : exec a s0 = .next s1) (h1 : exec b s1 = .next s2)
    (h2 : exec i s2 = .next s3) (h3 : exec i s3 = .next s3) : IsRun (ops3 a b i) (run3 s0 s1 s2 s3) := by
  intro n
  match n with
  | 0 => exact h0
  | 1 => exact h1
  | 2 => exact h2
  | n + 3 => exact h3

/-- One record waits, is taken and is executed; then the loop polls the empty queue for ever. -/
theorem witness_FairDispatchDelivers :
    ∃ (ops : Nat → Instr) (run : Nat → State), IsRun ops run ∧ FairDispatch ops run ∧
      ∃ n r, r ∈ outstanding (run n) := by
  let s0 : State := { S0 with qTail := 1, q := #v[0x5381, 0, 0, 0, 0, 0, 0, 0] }
  let s1 : State := { s0 with qHead := 1, inflight := some 0x5381 }
  let s2 : State := { s1 with inflight := none, trace := .writeHandler 0x5381 }
  exact ⟨ops3 .dispTake (.dispExec 0x00) .dispTake, run3 s0 s1 s2 { s2 with trace := .silent },
    isRun3 rfl rfl rfl rfl, fun n _ => ⟨n + 2, by omega, .inl rfl⟩, 0, 0x5381, by decide⟩

/-- One pulse is emitted; then the loop polls for ever. -/
theorem witness_FairEmissionEnds :
    ∃ (ops : Nat → Instr) (run : Nat → State), IsRun ops run ∧ FairEmit ops run ∧ 0 < (run 0).emitRemaining.toNat ∧
      ∀ m, 0 ≤ m → ops m ≠ .addrCommit := by
  let s0 : State := { S0 with emitRemaining := 1 }
  let s1 : State := { s0 with emitRemaining := s0.emitRemaining - 1, trace := { TraceRecord.silent with addrOutPulse := true } }
  let s2 : State := { s1 with trace := .silent }
  have h0 : exec .addrEmit s0 = .next s1 := by
    show execAddrEmit s0 = _
    rw [execAddrEmit, if_neg (by decide)]
    rfl
  have h1 (t : State) (h : t.emitRemaining = s1.emitRemaining) : exec .addrEmit t = .next { t with trace := .silent } := by
    show execAddrEmit t = _
    rw [execAddrEmit, if_pos (by rw [h]; decide)]
    rfl
  refine ⟨ops3 .addrEmit .addrEmit .addrEmit, run3 s0 s1 s2 s2, isRun3 h0 (h1 s1 rfl) (h1 s2 rfl) (h1 s2 rfl),
    fun n _ => ⟨n + 2, by omega, rfl⟩, by decide, fun m _ => ?_⟩
  match m with
  | 0 => decide
  | 1 => decide
  | n + 2 => exact fun h => by cases h

/-- One assignment is committed; then the loop polls for ever, and the engine is idle throughout. -/
theorem witness_FairCommitAssigns :
    ∃ (ops : Nat → Instr) (run : Nat → State), IsRun ops run ∧ FairCommit ops run ∧ (run 0).assignPending ≠ none ∧
      ∀ m, 0 ≤ m → (run m).state = .idle := by
  let s0 : State := { S0 with assignPending := some 6 }
  let s1 : State := s0.commitAssignment 6
  let s2 : State := { s1 with trace := .silent }
  refine ⟨ops3 .addrCommit .addrCommit .addrCommit, run3 s0 s1 s2 s2, isRun3 rfl rfl rfl rfl,
    fun n _ _ => ⟨n + 2, by omega, rfl⟩, by decide, fun m _ => ?_⟩
  match m with
  | 0 => rfl
  | 1 => rfl
  | 2 => rfl
  | n + 3 => rfl

/-- An asserted line one tick from its expiry; the two tick agents take turns for ever. -/
theorem witness_FairTicksReleaseLine :
    ∃ (ops : Nat → Instr) (run : Nat → State), IsRun ops run ∧ FairTicks ops ∧ Inv (run 0) ∧ (run 0).evtLine = true ∧
      ∀ m, 0 ≤ m → ops m ≠ .evtAssert := by
  let s1 : State := { sRc.releaseEvt with trace := { TraceRecord.silent with cause := .timeoutAbandonment } }
  let s2 : State := { s1 with trace := .silent }
  refine ⟨fun n => if n % 2 = 0 then .evtTick else .addrTick, run3 sRc s1 s2 s2, ?_, ?_, sRc_inv, rfl, ?_⟩
  · intro n
    match n with
    | 0 => rfl
    | 1 => rfl
    | 2 => rfl
    | n + 3 =>
      rcases Nat.mod_two_eq_zero_or_one (n + 3) with h | h
      · simp only [h]; rfl
      · simp only [h]; rfl
  · intro n
    exact ⟨⟨2 * n + 1, by omega, by simp [Nat.add_mod]⟩, ⟨2 * n, by omega, by simp⟩⟩
  · intro m _
    rcases Nat.mod_two_eq_zero_or_one m with h | h <;> simp [h]

end Sys2Proof.Tests
end

section
/-! PROOFS. What a step does, by what is issued (R12, R60, R86, R261). -/

namespace Sys2Proof.Machine

/-- With no word issued the block waits (R261). -/
theorem step_of_issued_nil {s : State} (hi : s.issued = []) : step s = .next (s.finish .silent) := by
  have hf : s.fetch = none := by rw [fetch_eq, hi]
  simp only [step, hf, State.wait]

theorem fetch_of_issued_cons {s : State} {w : Word} {rest : List Word} (hi : s.issued = w :: rest) :
    s.fetch = some (w, { s with issued := rest }) := by
  rw [fetch_eq, hi]

/-- An issued word that decodes to an operation is taken and the operation run (R12, R60). -/
theorem step_of_issued_op {s : State} {w : Word} {rest : List Word} {i : Instr} (hi : s.issued = w :: rest)
    (hd : decode w = .op i) : step s = exec i { s with issued := rest } := by
  simp only [step, fetch_of_issued_cons hi, hd]

/-- An issued reserved word is refused (R86 (a)). -/
theorem step_of_issued_reserved {s : State} {w : Word} {rest : List Word} {e : Reserved} (hi : s.issued = w :: rest)
    (hd : decode w = .reserved e) : step s = .refused (.reservedWord e) := by
  simp only [step, fetch_of_issued_cons hi, hd, refuse]

/-- Settles O8: one rule for each of the three things that can be issued, an operation's word, a reserved word, none. -/
theorem stepRunsTheIssuedWord : Obligations.StepRunsTheIssuedWord := by
  unfold Obligations.StepRunsTheIssuedWord
  intro s w rest
  refine ⟨fun hi i hd => ?operation, fun hi e hd => ?reserved, fun hi => ?waiting⟩
  case operation => exact step_of_issued_op hi hd
  case reserved => exact step_of_issued_reserved hi hd
  case waiting => exact step_of_issued_nil hi

end Sys2Proof.Machine
end

section
/-! PROOFS. The codes of the tables (R21, R93, R220). -/

namespace Sys2Proof.Machine

/-- A state's code reads back as the state (R21). -/
@[simp] theorem BusState.ofCode_code (b : BusState) : BusState.ofCode b.code = b := by
  cases b <;> rfl

/-- Each of the eight codes is the code of the state it names (R21). -/
@[simp] theorem BusState.code_ofCode (c : BitVec 3) : (BusState.ofCode c).code = c := by
  revert c; decide

/-- No two engine states share a code (R21). -/
theorem BusState.code_injective : Function.Injective BusState.code :=
  Function.LeftInverse.injective BusState.ofCode_code

/-- Settles O7: the three tables entry by entry; a state's code reads back in both directions. -/
theorem codesFollowTables : Obligations.CodesFollowTables := by
  unfold Obligations.CodesFollowTables
  exact ⟨rfl, BusState.ofCode_code, BusState.code_ofCode, rfl, rfl⟩

end Sys2Proof.Machine
end

section
/-! PROOFS. The loop's polling operations: DISP_TAKE by its three cases (R150), ADDR_COMMIT (R180) and ADDR_EMIT (R186) with
nothing to do, and the three in a quiescent block (R41, R87). -/

namespace Sys2Proof.Machine

variable {s : State}

/-- Quiescence, register by register (R41, R233). -/
theorem quiescent_iff :
    s.quiescent = true ↔ s.qEmpty = true ∧ s.inflight = none ∧ s.assignPending = none ∧ s.emitRemaining = 0 := by
  simp [State.quiescent, and_assoc]

/-- DISP_TAKE with nothing queued (R150). -/
theorem execDispTake_of_empty (hi : s.inflight = none) (he : s.qEmpty = true) : execDispTake s = s.noEffect := by
  simp only [execDispTake, hi, he, if_true]

/-- DISP_TAKE with a record waiting (R150). -/
theorem execDispTake_of_waiting (hi : s.inflight = none) (he : s.qEmpty = false) :
    execDispTake s =
      .next (State.finish { s with qHead := inc8 s.qHead, inflight := some (s.memRead s.qHead) } .silent) := by
  simp only [execDispTake, hi, he, Bool.false_eq_true, if_false, dequeue_eq]

/-- DISP_TAKE with a command in flight (R150, R86 (b)). -/
theorem execDispTake_of_inflight {r : Slot} (hi : s.inflight = some r) : execDispTake s = .refused .twoInFlight := by
  simp only [execDispTake, hi, refuse]

/-- ADDR_COMMIT with nothing pending (R180). -/
theorem execAddrCommit_of_none (hp : s.assignPending = none) : execAddrCommit s = s.noEffect := by
  simp only [execAddrCommit, hp]

/-- ADDR_EMIT with no pulse left (R186). -/
theorem execAddrEmit_of_zero (he : s.emitRemaining = 0) : execAddrEmit s = s.noEffect := if_pos he

/-- Settles O54: quiescence is just what each of the three operations finds when it has nothing to do. -/
theorem quiescentPollsDoNothing : Obligations.QuiescentPollsDoNothing := by
  unfold Obligations.QuiescentPollsDoNothing
  intro s i hq hi
  obtain ⟨hempty, hflight, hpending, hemit⟩ := quiescent_iff.1 hq
  rcases hi with rfl | rfl | rfl
  · exact execDispTake_of_empty hflight hempty
  · exact execAddrCommit_of_none hpending
  · exact execAddrEmit_of_zero hemit

end Sys2Proof.Machine
end

section
/-! PROOFS. What a register's number says of the register (R20): equal numbers, equal contents. -/

namespace Sys2Proof.Machine

variable {s t : State}

theorem state_eq_of_value (h : Reg.value .state s = Reg.value .state t) : s.state = t.state :=
  BusState.code_injective (BitVec.eq_of_toNat_eq (Option.some.inj h))

theorem cmdLatch_eq_of_value (h : Reg.value .cmdLatch s = Reg.value .cmdLatch t) : s.cmdLatch = t.cmdLatch :=
  BitVec.eq_of_toNat_eq (Option.some.inj h)

theorem readResult_eq_of_value (h : Reg.value .readResult s = Reg.value .readResult t) :
    s.readResult = t.readResult :=
  BitVec.eq_of_toNat_eq (Option.some.inj h)

theorem qHead_eq_of_value (h : Reg.value .qHead s = Reg.value .qHead t) : s.qHead = t.qHead :=
  BitVec.eq_of_toNat_eq (Option.some.inj h)

theorem qTail_eq_of_value (h : Reg.value .qTail s = Reg.value .qTail t) : s.qTail = t.qTail :=
  BitVec.eq_of_toNat_eq (Option.some.inj h)

theorem memRead_eq_of_value {k : SlotIdx} (h : Reg.value (.slot k) s = Reg.value (.slot k) t) :
    s.memRead k = t.memRead k :=
  BitVec.eq_of_toNat_eq (Option.some.inj h)

theorem inflight_eq_of_value (h : Reg.value .inflight s = Reg.value .inflight t) : s.inflight = t.inflight :=
  Option.map_injective (fun _ _ => BitVec.eq_of_toNat_eq) h

theorem pulseCount_eq_of_value (h : Reg.value .pulseCount s = Reg.value .pulseCount t) :
    s.pulseCount = t.pulseCount :=
  BitVec.eq_of_toNat_eq (Option.some.inj h)

/-- The number of a flag tells its value. -/
theorem bool_eq_of_toNat_eq {a b : Bool} (h : a.toNat = b.toNat) : a = b := by
  revert a b; decide

theorem burstArmed_eq_of_value (h : Reg.value .burstArmed s = Reg.value .burstArmed t) :
    s.burstArmed = t.burstArmed :=
  bool_eq_of_toNat_eq (Option.some.inj h)

theorem burstTicks_eq_of_value (h : Reg.value .burstTicks s = Reg.value .burstTicks t) :
    s.burstTicks = t.burstTicks :=
  Option.some.inj h

theorem assignPending_eq_of_value (h : Reg.value .assignPending s = Reg.value .assignPending t) :
    s.assignPending = t.assignPending :=
  Option.map_injective (fun _ _ => BitVec.eq_of_toNat_eq) h

theorem emitRemaining_eq_of_value (h : Reg.value .emitRemaining s = Reg.value .emitRemaining t) :
    s.emitRemaining = t.emitRemaining :=
  BitVec.eq_of_toNat_eq (Option.some.inj h)

theorem evtArmed_eq_of_value (h : Reg.value .evtArmed s = Reg.value .evtArmed t) : s.evtArmed = t.evtArmed :=
  bool_eq_of_toNat_eq (Option.some.inj h)

theorem evtTicks_eq_of_value (h : Reg.value .evtTicks s = Reg.value .evtTicks t) : s.evtTicks = t.evtTicks :=
  Option.some.inj h

/-- The queue is full by its two indices alone (R38). -/
theorem qFull_eq (hh : s.qHead = t.qHead) (ht : s.qTail = t.qTail) : s.qFull = t.qFull := by
  rw [State.qFull, State.qFull, hh, ht]

/-- The queue is empty by its two indices alone (R38). -/
theorem qEmpty_eq (hh : s.qHead = t.qHead) (ht : s.qTail = t.qTail) : s.qEmpty = t.qEmpty := by
  rw [State.qEmpty, State.qEmpty, hh, ht]

end Sys2Proof.Machine
end

section
/-! PROOFS. One operation in two states at once (R42). `SameChange i` says that two states move alike and write only what
`i` has a W mark for; with one state on both sides it is the frame of the operation. First its rules, one for each shared
operation of the model. -/

namespace Sys2Proof.Machine

/-- From `s` to `t` and from `s'` to `t'`, each register stays in both, or is one that `i` may write and ends the same in
both. From `s` to `t` the parameters and the issued words, which are no registers, stay. -/
structure SameChange (i : Instr) (s s' t t' : State) : Prop where
  registers : ∀ r : Reg, (r.value t = r.value s ∧ r.value t' = r.value s') ∨
    (mayWrite i r = true ∧ r.value t = r.value t')
  cfg : t.cfg = s.cfg := by rfl
  issued : t.issued = s.issued := by rfl

/-- Two outcomes of `i`, one from `s` and one from `s'`: the same refusal, or the same change with the same record. -/
inductive OutcomesAlike (i : Instr) (s s' : State) :
    Host.Outcome State Fault Refusal → Host.Outcome State Fault Refusal → Prop
  | next {t t' : State} (change : SameChange i s s' t t') (trace : t'.trace = t.trace) :
      OutcomesAlike i s s' (.next t) (.next t')
  | refused (e : Refusal) : OutcomesAlike i s s' (.refused e) (.refused e)

variable {i : Instr} {s s' t t' u u' : State}

/-- Two changes one after the other are one change. -/
theorem SameChange.trans (h : SameChange i s s' t t') (h' : SameChange i t t' u u') : SameChange i s s' u u' where
  registers r := by
    rcases h'.registers r with ⟨hu, hu'⟩ | hwritten
    · rw [hu, hu']; exact h.registers r
    · exact .inr hwritten
  cfg := h'.cfg.trans h.cfg
  issued := h'.issued.trans h.issued

/-- The end of an operation changes no register (R40). -/
theorem SameChange.finish (x x' : TraceRecord) : SameChange i s s' (s.finish x) (s'.finish x') :=
  { registers := fun r => by cases r <;> exact .inl ⟨rfl, rfl⟩ }

/-- `state <- S` (R10). -/
theorem SameChange.goto (hw : mayWrite i .state = true) (b : BusState) : SameChange i s s' (s.goto b) (s'.goto b) where
  registers r := by
    cases r with
    | state => exact .inr ⟨hw, rfl⟩
    | _ => exact .inl ⟨rfl, rfl⟩

/-- `Reinit(a)` (R140). -/
theorem SameChange.setAddr (hw : mayWrite i .ownAddr = true) (a : BusAddr) :
    SameChange i s s' (s.setAddr a) (s'.setAddr a) where
  registers r := by
    cases r with
    | ownAddr => exact .inr ⟨hw, rfl⟩
    | _ => exact .inl ⟨rfl, rfl⟩

/-- `EvtRelease()` (R205). -/
theorem SameChange.releaseEvt (hl : mayWrite i .evtLine = true) (ha : mayWrite i .evtArmed = true)
    (ht : mayWrite i .evtTicks = true) : SameChange i s s' s.releaseEvt s'.releaseEvt where
  registers r := by
    cases r with
    | evtLine => exact .inr ⟨hl, rfl⟩
    | evtArmed => exact .inr ⟨ha, rfl⟩
    | evtTicks => exact .inr ⟨ht, rfl⟩
    | _ => exact .inl ⟨rfl, rfl⟩

/-- `Enqueue(rec)` (R55): from equal tails the same slot is written in both queues. -/
theorem SameChange.enqueue (hs : ∀ k, mayWrite i (.slot k) = true) (hq : mayWrite i .qTail = true)
    (ht : s.qTail = s'.qTail) (r : Slot) : SameChange i s s' (s.enqueue r) (s'.enqueue r) where
  registers x := by
    cases x with
    | qTail => exact .inr ⟨hq, by simp [Reg.value, ht]⟩
    | slot k =>
      by_cases hk : k = s.qTail
      · have hk' : k = s'.qTail := hk.trans ht
        exact .inr ⟨hs k, by simp only [Reg.value]; rw [hk, memRead_enqueue_tail, ht, memRead_enqueue_tail]⟩
      · have hk' : k ≠ s'.qTail := ht ▸ hk
        exact .inl (by simp [Reg.value, memRead_enqueue_other _ _ _ hk, memRead_enqueue_other _ _ _ hk'])
    | _ => exact .inl ⟨rfl, rfl⟩

/-- The last step of an operation: its outputs, the same in both. -/
theorem OutcomesAlike.finish (h : SameChange i s s' t t') (x : TraceRecord) :
    OutcomesAlike i s s' (.next (t.finish x)) (.next (t'.finish x)) :=
  .next (h.trans (.finish x x)) rfl

/-- A bus event that answers (R110). -/
theorem OutcomesAlike.answer (hw : mayWrite i .state = true) (r : BusResp) (b : BusState) (c : Cause) :
    OutcomesAlike i s s' (s.answer r b c) (s'.answer r b c) :=
  .finish (.goto hw b) (.response r c)

/-- A bus event that answers after a change of its latches or the queue (R110). -/
theorem OutcomesAlike.answer_after (h : SameChange i s s' t t') (hw : mayWrite i .state = true) (r : BusResp)
    (b : BusState) (c : Cause) : OutcomesAlike i s s' (t.answer r b c) (t'.answer r b c) :=
  .finish (h.trans (.goto hw b)) (.response r c)

/-- An operation without effect (R87). -/
theorem OutcomesAlike.noEffect : OutcomesAlike i s s' s.noEffect s'.noEffect :=
  .next (.finish .silent .silent) rfl

/-- Two branches under one condition are compared branch by branch. -/
theorem OutcomesAlike.ite {p p' : Prop} [Decidable p] [Decidable p'] {a b a' b' : Host.Outcome State Fault Refusal}
    (hp : p ↔ p') (ha : OutcomesAlike i s s' a a') (hb : OutcomesAlike i s s' b b') :
    OutcomesAlike i s s' (if p then a else b) (if p' then a' else b') := by
  by_cases h : p
  · rwa [if_pos h, if_pos (hp.1 h)]
  · rwa [if_neg h, if_neg (mt hp.2 h)]

/-- Outcomes alike are the same refusals. -/
theorem OutcomesAlike.refused_iff {o o' : Host.Outcome State Fault Refusal} (h : OutcomesAlike i s s' o o')
    (e : Refusal) : o = .refused e ↔ o' = .refused e := by
  cases h with
  | next => simp
  | refused => rfl

/-- Outcomes alike are next states together. -/
theorem OutcomesAlike.exists_next {o o' : Host.Outcome State Fault Refusal} (h : OutcomesAlike i s s' o o')
    (ho : o = .next t) : ∃ t', o' = .next t' ∧ t'.trace = t.trace ∧ SameChange i s s' t t' := by
  cases h with
  | next change trace => cases ho; exact ⟨_, rfl, trace, change⟩
  | refused => cases ho

end Sys2Proof.Machine
end

section
/-! PROOFS. Each operation in two states that agree on what it reads (R42): one lemma an operation, whose hypotheses are the
registers with an R mark, as far as the operation rules read them. -/

namespace Sys2Proof.Machine

variable {s s' : State}

/-- BUS_ADDR_RX (R113). -/
theorem execBusAddrRx_alike (hs : s.state = s'.state) (hf : s.qFull = s'.qFull) :
    OutcomesAlike .busAddrRx s s' (execBusAddrRx s) (execBusAddrRx s') := by
  unfold execBusAddrRx
  rw [← hs, ← hf]
  cases s.state with
  | idle => exact .ite .rfl (.answer rfl ..) (.answer rfl ..)
  | _ => exact .answer rfl ..

/-- The command byte (R117). -/
theorem receiveCommand_alike (d : Byte) :
    OutcomesAlike (.busDataRx d) s s' (s.receiveCommand d) (s'.receiveCommand d) := by
  refine .ite .rfl (.answer rfl ..) (.answer_after { registers := fun r => ?_ } rfl ..)
  cases r with
  | cmdLatch => exact .inr ⟨rfl, rfl⟩
  | _ => exact .inl ⟨rfl, rfl⟩

/-- The write of `arg_latch` (R118). -/
theorem argLatch_sameChange (d : Byte) :
    SameChange (.busDataRx d) s s' { s with argLatch := d } { s' with argLatch := d } where
  registers r := by
    cases r with
    | argLatch => exact .inr ⟨rfl, rfl⟩
    | _ => exact .inl ⟨rfl, rfl⟩

/-- The argument byte (R118). -/
theorem receiveArgument_alike (d : Byte) (hc : s.cmdLatch = s'.cmdLatch) (ht : s.qTail = s'.qTail)
    (hf : s.qFull = s'.qFull) :
    OutcomesAlike (.busDataRx d) s s' (s.receiveArgument d) (s'.receiveArgument d) := by
  have hrec : recordOf s'.cmdLatch d = recordOf s.cmdLatch d := by rw [hc]
  unfold State.receiveArgument
  rw [hrec]
  exact .ite (by rw [hf]) (.answer_after (argLatch_sameChange d) rfl ..)
    (.answer_after ((argLatch_sameChange d).trans (.enqueue (fun _ => rfl) rfl (by exact ht) _)) rfl ..)

/-- BUS_DATA_RX (R116 to R119). -/
theorem execBusDataRx_alike (d : Byte) (hs : s.state = s'.state) (hc : s.cmdLatch = s'.cmdLatch)
    (ht : s.qTail = s'.qTail) (hf : s.qFull = s'.qFull) :
    OutcomesAlike (.busDataRx d) s s' (execBusDataRx d s) (execBusDataRx d s') := by
  unfold execBusDataRx
  rw [← hs]
  cases s.state with
  | wrc => exact receiveCommand_alike d
  | rc => exact receiveArgument_alike d hc ht hf
  | _ => exact .answer rfl ..

/-- BUS_ADDR_TX (R125). -/
theorem execBusAddrTx_alike (hr : s.readResult = s'.readResult) :
    OutcomesAlike .busAddrTx s s' (execBusAddrTx s) (execBusAddrTx s') := by
  have hclear : SameChange .busAddrTx s s' { s with readResult := 0x00 } { s' with readResult := 0x00 } := by
    refine { registers := fun r => ?_ }
    cases r with
    | readResult => exact .inr ⟨rfl, rfl⟩
    | _ => exact .inl ⟨rfl, rfl⟩
  exact .next (((hclear.trans (.releaseEvt rfl rfl rfl)).trans (.goto rfl .rrc)).trans (.finish _ _))
    (by simp [hr])

/-- BUS_DATA_TX (R129). -/
theorem execBusDataTx_alike (hs : s.state = s'.state) :
    OutcomesAlike .busDataTx s s' (execBusDataTx s) (execBusDataTx s') := by
  unfold execBusDataTx
  rw [← hs]
  cases s.state <;> exact .answer rfl ..

/-- REINIT (R140). -/
theorem execReinit_alike (a : BusAddr) (hs : s.state = s'.state) :
    OutcomesAlike (.reinit a) s s' (execReinit a s) (execReinit a s') :=
  .ite (by rw [hs]) (.finish (.setAddr rfl a) _) (.refused _)

/-- DISP_TAKE (R150). -/
theorem execDispTake_alike (hi : s.inflight = s'.inflight) (hh : s.qHead = s'.qHead) (ht : s.qTail = s'.qTail)
    (hm : ∀ k, s.memRead k = s'.memRead k) :
    OutcomesAlike .dispTake s s' (execDispTake s) (execDispTake s') := by
  have hempty := qEmpty_eq hh ht
  cases hf : s.inflight with
  | some r =>
    rw [execDispTake_of_inflight hf, execDispTake_of_inflight (hi ▸ hf)]
    exact .refused _
  | none =>
    cases he : s.qEmpty with
    | true =>
      rw [execDispTake_of_empty hf he, execDispTake_of_empty (hi ▸ hf) (hempty ▸ he)]
      exact .noEffect
    | false =>
      rw [execDispTake_of_waiting hf he, execDispTake_of_waiting (hi ▸ hf) (hempty ▸ he)]
      refine .finish { registers := fun r => ?_ } _
      cases r with
      | qHead => exact .inr ⟨rfl, by simp [Reg.value, hh]⟩
      | inflight => exact .inr ⟨rfl, by simp [Reg.value, hm, hh]⟩
      | _ => exact .inl ⟨rfl, rfl⟩

/-- DISP_EXEC (R153). -/
theorem execDispExec_alike (a : Byte) (hi : s.inflight = s'.inflight) (hcfg : s.cfg = s'.cfg) :
    OutcomesAlike (.dispExec a) s s' (execDispExec a s) (execDispExec a s') := by
  unfold execDispExec
  rw [← hi]
  cases s.inflight with
  | none => exact .refused _
  | some r =>
    refine .ite (by rw [hcfg]) (.finish { registers := fun x => ?_ } _) (.finish { registers := fun x => ?_ } _)
    · cases x with
      | readResult | inflight => exact .inr ⟨rfl, rfl⟩
      | _ => exact .inl ⟨rfl, rfl⟩
    · cases x with
      | inflight => exact .inr ⟨rfl, rfl⟩
      | _ => exact .inl ⟨rfl, rfl⟩

/-- ADDR_FALL (R170). -/
theorem execAddrFall_alike (hp : s.pulseCount = s'.pulseCount) :
    OutcomesAlike .addrFall s s' (execAddrFall s) (execAddrFall s') := by
  refine .finish { registers := fun r => ?_ } _
  cases r with
  | pulseCount => exact .inr ⟨rfl, by simp [Reg.value, hp]⟩
  | burstArmed | burstTicks => exact .inr ⟨rfl, rfl⟩
  | _ => exact .inl ⟨rfl, rfl⟩

/-- The burst is complete (R174): a valid count becomes the pending assignment, any other leaves the pending one. -/
theorem completeBurst_alike (hp : s.pulseCount = s'.pulseCount) :
    OutcomesAlike .addrTick s s' (.next s.completeBurst) (.next s'.completeBurst) := by
  cases hv : validCount s.pulseCount with
  | true =>
    have hv' : validCount s'.pulseCount = true := hp ▸ hv
    simp only [State.completeBurst, hv, hv', if_true]
    refine .finish { registers := fun r => ?_ } _
    cases r with
    | assignPending => exact .inr ⟨rfl, by simp [Reg.value, hp]⟩
    | pulseCount | burstArmed | burstTicks => exact .inr ⟨rfl, rfl⟩
    | _ => exact .inl ⟨rfl, rfl⟩
  | false =>
    have hv' : validCount s'.pulseCount = false := hp ▸ hv
    simp only [State.completeBurst, hv, hv', Bool.false_eq_true, if_false]
    refine .finish { registers := fun r => ?_ } _
    cases r with
    | pulseCount | burstArmed | burstTicks => exact .inr ⟨rfl, rfl⟩
    | _ => exact .inl ⟨rfl, rfl⟩

/-- ADDR_TICK (R174). -/
theorem execAddrTick_alike (hp : s.pulseCount = s'.pulseCount) (ha : s.burstArmed = s'.burstArmed)
    (ht : s.burstTicks = s'.burstTicks) (hcfg : s.cfg = s'.cfg) :
    OutcomesAlike .addrTick s s' (execAddrTick s) (execAddrTick s') := by
  refine .ite (by rw [ha]) .noEffect
    (.ite (by rw [ht, hcfg]) (.finish { registers := fun r => ?_ } _) (completeBurst_alike hp))
  cases r with
  | burstTicks => exact .inr ⟨rfl, by simp [Reg.value, ht]⟩
  | _ => exact .inl ⟨rfl, rfl⟩

/-- The commit (R180): the address and the count follow from the pending count and the device class. -/
theorem commitAssignment_alike (n : Byte) (hcfg : s.cfg = s'.cfg) :
    OutcomesAlike .addrCommit s s' (.next (s.commitAssignment n)) (.next (s'.commitAssignment n)) := by
  refine .next { registers := fun r => ?_ } (by simp [State.commitAssignment, hcfg])
  cases r with
  | ownAddr => exact .inr ⟨rfl, by simp [Reg.value, State.commitAssignment, hcfg]⟩
  | assignPending | emitRemaining => exact .inr ⟨rfl, rfl⟩
  | _ => exact .inl ⟨rfl, rfl⟩

/-- ADDR_COMMIT (R180). -/
theorem execAddrCommit_alike (hs : s.state = s'.state) (hp : s.assignPending = s'.assignPending)
    (hcfg : s.cfg = s'.cfg) : OutcomesAlike .addrCommit s s' (execAddrCommit s) (execAddrCommit s') := by
  unfold execAddrCommit
  rw [← hp]
  cases s.assignPending with
  | none => exact .noEffect
  | some n => exact .ite (by rw [hs]) (commitAssignment_alike n hcfg) .noEffect

/-- ADDR_EMIT (R186). -/
theorem execAddrEmit_alike (he : s.emitRemaining = s'.emitRemaining) :
    OutcomesAlike .addrEmit s s' (execAddrEmit s) (execAddrEmit s') := by
  refine .ite (by rw [he]) .noEffect (.finish { registers := fun r => ?_ } _)
  cases r with
  | emitRemaining => exact .inr ⟨rfl, by simp [Reg.value, he]⟩
  | _ => exact .inl ⟨rfl, rfl⟩

/-- EVT_ASSERT (R200). -/
theorem execEvtAssert_alike : OutcomesAlike .evtAssert s s' (execEvtAssert s) (execEvtAssert s') := by
  refine .finish { registers := fun r => ?_ } _
  cases r with
  | evtLine | evtArmed | evtTicks => exact .inr ⟨rfl, rfl⟩
  | _ => exact .inl ⟨rfl, rfl⟩

/-- EVT_TICK (R206). -/
theorem execEvtTick_alike (ha : s.evtArmed = s'.evtArmed) (ht : s.evtTicks = s'.evtTicks) (hcfg : s.cfg = s'.cfg) :
    OutcomesAlike .evtTick s s' (execEvtTick s) (execEvtTick s') := by
  refine .ite (by rw [ha]) .noEffect (.ite (by rw [ht, hcfg])
    (.finish { registers := fun r => ?_ } _) (.finish (.releaseEvt rfl rfl rfl) _))
  cases r with
  | evtTicks => exact .inr ⟨rfl, by simp [Reg.value, ht]⟩
  | _ => exact .inl ⟨rfl, rfl⟩

/-- The access matrix of R42 as one relation: from two states that agree on the parameters and on what `i` may read, `i` is
refused alike or writes the same into registers it may write. -/
theorem exec_alike (i : Instr) (hcfg : s.cfg = s'.cfg) (h : ∀ r, mayRead i r = true → r.value s = r.value s') :
    OutcomesAlike i s s' (exec i s) (exec i s') := by
  cases i with
  | busAddrRx =>
    exact execBusAddrRx_alike (state_eq_of_value (h .state rfl))
      (qFull_eq (qHead_eq_of_value (h .qHead rfl)) (qTail_eq_of_value (h .qTail rfl)))
  | busDataRx d =>
    have htail := qTail_eq_of_value (h .qTail rfl)
    exact execBusDataRx_alike d (state_eq_of_value (h .state rfl)) (cmdLatch_eq_of_value (h .cmdLatch rfl)) htail
      (qFull_eq (qHead_eq_of_value (h .qHead rfl)) htail)
  | busStop => exact .answer rfl ..
  | busAddrTx => exact execBusAddrTx_alike (readResult_eq_of_value (h .readResult rfl))
  | busDataTx => exact execBusDataTx_alike (state_eq_of_value (h .state rfl))
  | busOther _ => exact .answer rfl ..
  | reinit a => exact execReinit_alike a (state_eq_of_value (h .state rfl))
  | dispTake =>
    exact execDispTake_alike (inflight_eq_of_value (h .inflight rfl)) (qHead_eq_of_value (h .qHead rfl))
      (qTail_eq_of_value (h .qTail rfl)) (fun k => memRead_eq_of_value (h (.slot k) rfl))
  | dispExec r => exact execDispExec_alike r (inflight_eq_of_value (h .inflight rfl)) hcfg
  | addrFall => exact execAddrFall_alike (pulseCount_eq_of_value (h .pulseCount rfl))
  | addrTick =>
    exact execAddrTick_alike (pulseCount_eq_of_value (h .pulseCount rfl)) (burstArmed_eq_of_value (h .burstArmed rfl))
      (burstTicks_eq_of_value (h .burstTicks rfl)) hcfg
  | addrCommit =>
    exact execAddrCommit_alike (state_eq_of_value (h .state rfl)) (assignPending_eq_of_value (h .assignPending rfl)) hcfg
  | addrEmit => exact execAddrEmit_alike (emitRemaining_eq_of_value (h .emitRemaining rfl))
  | evtAssert => exact execEvtAssert_alike
  | evtRelease => exact .finish (.releaseEvt rfl rfl rfl) _
  | evtTick =>
    exact execEvtTick_alike (evtArmed_eq_of_value (h .evtArmed rfl)) (evtTicks_eq_of_value (h .evtTicks rfl)) hcfg

/-- Settles O32: the two outcomes are alike, and a register written alike is the same in both. -/
theorem onlyMarkedRegistersAreRead : Obligations.OnlyMarkedRegistersAreRead := by
  unfold Obligations.OnlyMarkedRegistersAreRead
  intro i s s' hcfg hread
  have halike := exec_alike i hcfg hread
  refine ⟨halike.refused_iff, fun t ht => ?_⟩
  obtain ⟨t', ht', htrace, hchange⟩ := halike.exists_next ht
  exact ⟨t', ht', htrace, fun r => (hchange.registers r).imp_right And.right⟩

end Sys2Proof.Machine
end

section
/-! PROOFS. The frame of every operation (R42, R118): the relation of two states read with one state on both sides. -/

namespace Sys2Proof.Machine

variable {i : Instr} {s t : State}

/-- An operation that completes changes, from a state to the next, only what it may write. -/
theorem exec_sameChange (h : exec i s = .next t) : SameChange i s s t t := by
  obtain ⟨t', ht', -, hchange⟩ := (exec_alike i rfl (fun _ _ => rfl)).exists_next h
  obtain rfl : t = t' := Host.Outcome.next.inj (h.symm.trans ht')
  exact hchange

/-- A register without a W mark keeps its value (R42). -/
theorem exec_keeps_unmarked (h : exec i s = .next t) {r : Reg} (hr : mayWrite i r = false) : r.value t = r.value s := by
  rcases (exec_sameChange h).registers r with ⟨hkept, -⟩ | ⟨hw, -⟩
  · exact hkept
  · rw [hr] at hw; cases hw

/-- BUS_DATA_RX leaves each slot that R118 does not enqueue into. -/
theorem execBusDataRx_keeps_slot {d : Byte} (h : execBusDataRx d s = .next t) {k : SlotIdx}
    (hk : k ≠ s.qTail ∨ ¬(s.state = .rc ∧ s.qFull = false)) : t.memRead k = s.memRead k := by
  obtain ⟨-, -, rfl⟩ | ⟨-, -, rfl⟩ | ⟨-, -, rfl⟩ | ⟨hs, hf, rfl⟩ | ⟨-, -, rfl⟩ := execBusDataRx_cases h
  case inr.inr.inr.inl =>
    have hne : k ≠ s.qTail := hk.resolve_right fun hn => hn ⟨hs, hf⟩
    exact memRead_enqueue_other _ _ _ hne
  all_goals rfl

/-- The queue's slots but the one R118 enqueues into stay: BUS_DATA_RX alone has the mark for the storage. -/
theorem exec_keeps_slot (h : exec i s = .next t) {k : SlotIdx}
    (hk : k ≠ s.qTail ∨ ¬((∃ d, i = .busDataRx d) ∧ s.state = .rc ∧ s.qFull = false)) :
    t.memRead k = s.memRead k := by
  cases i with
  | busDataRx d => exact execBusDataRx_keeps_slot h (hk.imp_right fun hn hroom => hn ⟨⟨d, rfl⟩, hroom⟩)
  | _ => exact memRead_eq_of_value (exec_keeps_unmarked h rfl)

/-- Settles O31: the frame read off the matrix, register by register, with R118's slot beside it. -/
theorem onlyMarkedRegistersChange : Obligations.OnlyMarkedRegistersChange := by
  unfold Obligations.OnlyMarkedRegistersChange
  intro i s t h
  obtain ⟨-, hcfg, hissued⟩ := exec_sameChange h
  exact ⟨fun _ => exec_keeps_unmarked h, fun _ => exec_keeps_slot h, hcfg, hissued⟩

end Sys2Proof.Machine
end

section
/-! PROOFS. Which operation drives which output (R40, "driven by"), first of a trace record alone. -/

namespace Sys2Proof.Machine

variable {i : Instr} {s t : State}

/-- The record `x` drives just the outputs that R40 and the operation rules give `i` in `s`. -/
structure OutputsDriven (i : Instr) (s : State) (x : TraceRecord) : Prop where
  busResp : x.busResp ≠ none ↔ agentOf i = .busPeripheral
  busTx : x.busTx ≠ none ↔ i = .busAddrTx
  handler : x.writeCall ≠ none ∨ x.readCall ≠ none ↔ ∃ r, i = .dispExec r
  one_handler : x.writeCall = none ∨ x.readCall = none
  liveness : x.liveness = true ↔ ∃ r, i = .dispExec r
  persistReq : x.persistReq ≠ none ↔ i = .addrCommit ∧ s.state = .idle ∧ s.assignPending ≠ none
  assigned : x.assigned ≠ none ↔ x.persistReq ≠ none
  pulse : x.addrOutPulse = true ↔ i = .addrEmit ∧ s.emitRemaining ≠ 0

/-- The operations that drive an output in `s`: a bus event, DISP_EXEC, a commit that is not held, a pulse. -/
def DrivesOutput (i : Instr) (s : State) : Prop :=
  agentOf i = .busPeripheral ∨ (∃ r, i = .dispExec r) ∨
  (i = .addrCommit ∧ s.state = .idle ∧ s.assignPending ≠ none) ∨ (i = .addrEmit ∧ s.emitRemaining ≠ 0)

/-- A record with at most a cause drives nothing (R40). -/
theorem OutputsDriven.of_causeOnly (h : ¬DrivesOutput i s) (c : Cause) :
    OutputsDriven i s { TraceRecord.silent with cause := c } := by
  simp only [DrivesOutput, not_or] at h
  obtain ⟨hbus, hexec, hcommit, hpulse⟩ := h
  have htx : i ≠ .busAddrTx := fun hi => hbus (hi ▸ rfl)
  constructor
  case pulse => exact iff_of_false Bool.false_ne_true hpulse
  all_goals simp [TraceRecord.silent, *]

/-- A silent record drives nothing (R40). -/
theorem OutputsDriven.of_silent (h : ¬DrivesOutput i s) : OutputsDriven i s .silent := .of_causeOnly h .none

/-- A bus event other than BUS_ADDR_TX drives its response only (R110). -/
theorem OutputsDriven.of_response (hbus : agentOf i = .busPeripheral) (htx : i ≠ .busAddrTx) (r : BusResp) (c : Cause) :
    OutputsDriven i s (.response r c) := by
  have hexec : ¬∃ r, i = .dispExec r := by rintro ⟨r, rfl⟩; cases hbus
  have hcommit : i ≠ .addrCommit := by rintro rfl; cases hbus
  have hemit : i ≠ .addrEmit := by rintro rfl; cases hbus
  constructor <;> simp [TraceRecord.response, TraceRecord.silent, *]

/-- BUS_ADDR_TX drives its response and the byte (R125). -/
theorem busAddrTx_outputsDriven (b : Byte) :
    OutputsDriven .busAddrTx s { TraceRecord.response .last .none with busTx := some b } := by
  constructor <;> simp [TraceRecord.response, TraceRecord.silent, agentOf]

/-- DISP_EXEC of a read command drives the read handler's call and the strobe (R153, R156). -/
theorem readHandler_outputsDriven (a : Byte) (r : Slot) : OutputsDriven (.dispExec a) s (.readHandler r) := by
  constructor <;> simp [TraceRecord.readHandler, TraceRecord.silent, agentOf]

/-- DISP_EXEC of a write command drives the write handler's call and the strobe (R153, R156). -/
theorem writeHandler_outputsDriven (a : Byte) (r : Slot) : OutputsDriven (.dispExec a) s (.writeHandler r) := by
  constructor <;> simp [TraceRecord.writeHandler, TraceRecord.silent, agentOf]

/-- A commit drives its two requests (R180). -/
theorem commitAssignment_outputsDriven {n : Byte} (hs : s.state = .idle) (hp : s.assignPending = some n) :
    OutputsDriven .addrCommit s (s.commitAssignment n).trace := by
  constructor <;> simp [State.commitAssignment, TraceRecord.silent, agentOf, hs, hp]

/-- An emission drives one pulse (R186). -/
theorem addrEmit_outputsDriven (he : s.emitRemaining ≠ 0) :
    OutputsDriven .addrEmit s { TraceRecord.silent with addrOutPulse := true } := by
  constructor
  case pulse => exact iff_of_true rfl ⟨rfl, he⟩
  all_goals simp [TraceRecord.silent, agentOf]

/-- The burst timer's completion drives nothing: noise raises a cause, a valid count is only kept (R174, R175). -/
theorem completeBurst_outputsDriven : OutputsDriven .addrTick s s.completeBurst.trace := by
  have hquiet : ¬DrivesOutput .addrTick s := by simp [DrivesOutput, agentOf]
  cases hv : validCount s.pulseCount with
  | true => simpa [State.completeBurst, hv] using OutputsDriven.of_silent hquiet
  | false => simpa [State.completeBurst, hv] using OutputsDriven.of_causeOnly hquiet .addressingNoise

/-- What an operation that completes drives, by its rule's cases (R40). -/
theorem exec_outputsDriven (h : exec i s = .next t) : OutputsDriven i s t.trace := by
  cases i with
  | busAddrRx =>
    obtain ⟨-, -, rfl⟩ | ⟨-, -, rfl⟩ | ⟨-, rfl⟩ := execBusAddrRx_cases h <;> exact .of_response rfl (by simp) ..
  | busDataRx d =>
    obtain ⟨-, -, rfl⟩ | ⟨-, -, rfl⟩ | ⟨-, -, rfl⟩ | ⟨-, -, rfl⟩ | ⟨-, -, rfl⟩ := execBusDataRx_cases h <;>
      exact .of_response rfl (by simp) ..
  | busStop => obtain rfl := answer_inj h; exact .of_response rfl (by simp) ..
  | busAddrTx => obtain rfl := Host.Outcome.next.inj h; exact busAddrTx_outputsDriven _
  | busDataTx => obtain ⟨-, rfl⟩ | ⟨-, rfl⟩ := execBusDataTx_cases h <;> exact .of_response rfl (by simp) ..
  | busOther _ => obtain rfl := answer_inj h; exact .of_response rfl (by simp) ..
  | reinit a =>
    obtain ⟨-, rfl⟩ := execReinit_cases h
    exact .of_silent (by simp [DrivesOutput, agentOf])
  | dispTake =>
    obtain ⟨-, ⟨-, rfl⟩ | ⟨-, rfl⟩⟩ := execDispTake_cases h <;> exact .of_silent (by simp [DrivesOutput, agentOf])
  | dispExec a =>
    obtain ⟨r, -, ⟨-, rfl⟩ | ⟨-, rfl⟩⟩ := execDispExec_cases h
    · exact readHandler_outputsDriven a r
    · exact writeHandler_outputsDriven a r
  | addrFall => obtain rfl := Host.Outcome.next.inj h; exact .of_silent (by simp [DrivesOutput, agentOf])
  | addrTick =>
    obtain ⟨-, rfl⟩ | ⟨-, -, rfl⟩ | ⟨-, -, rfl⟩ := execAddrTick_cases h
    · exact .of_silent (by simp [DrivesOutput, agentOf])
    · exact .of_silent (by simp [DrivesOutput, agentOf])
    · exact completeBurst_outputsDriven
  | addrCommit =>
    obtain ⟨hheld, rfl⟩ | ⟨n, hp, hs, rfl⟩ := execAddrCommit_cases h
    · have hidle : ¬(s.state = .idle ∧ s.assignPending ≠ none) := fun ⟨hs, hp⟩ => hheld.elim hp (· hs)
      exact .of_silent (by simpa [DrivesOutput, agentOf] using hidle)
    · exact commitAssignment_outputsDriven hs hp
  | addrEmit =>
    obtain ⟨he, rfl⟩ | ⟨he, rfl⟩ := execAddrEmit_cases h
    · exact .of_silent (by simp [DrivesOutput, agentOf, he])
    · exact addrEmit_outputsDriven he
  | evtAssert => obtain rfl := Host.Outcome.next.inj h; exact .of_silent (by simp [DrivesOutput, agentOf])
  | evtRelease => obtain rfl := Host.Outcome.next.inj h; exact .of_silent (by simp [DrivesOutput, agentOf])
  | evtTick =>
    obtain ⟨-, rfl⟩ | ⟨-, -, rfl⟩ | ⟨-, -, rfl⟩ := execEvtTick_cases h
    · exact .of_silent (by simp [DrivesOutput, agentOf])
    · exact .of_silent (by simp [DrivesOutput, agentOf])
    · exact .of_causeOnly (by simp [DrivesOutput, agentOf]) .timeoutAbandonment

/-- Settles O35: the eight outputs, each with the operation that drives it. -/
theorem outputsDrivenByOperation : Obligations.OutputsDrivenByOperation := by
  unfold Obligations.OutputsDrivenByOperation
  intro i s t h
  obtain ⟨hresp, htx, hcall, hone, hlive, hpersist, hassigned, hpulse⟩ := exec_outputsDriven h
  exact ⟨hresp, htx, hcall, hone, hlive, hpersist, hassigned, hpulse⟩

end Sys2Proof.Machine
end

section
/-! PROOFS. The queue's indices and its list of records (R38, R50 to R58): the count, which slots hold waiting records, and
`queued` across an enqueue, a dequeue and an operation that does neither. -/

namespace Sys2Proof.Machine

variable {i : Instr} {s t : State}

-- the indices and the count

theorem qEmpty_iff : s.qEmpty = true ↔ s.qHead = s.qTail := by simp [State.qEmpty]

theorem qFull_iff : s.qFull = true ↔ s.qTail + 1 = s.qHead := by simp [State.qFull, inc8_eq]

theorem qFull_eq_false_iff : s.qFull = false ↔ s.qTail + 1 ≠ s.qHead := by simp [State.qFull, inc8_eq]

/-- At most seven records wait: one slot stays free (R54). -/
theorem qCount_le (s : State) : s.qCount ≤ 7 := by
  have hlt : s.qCount < 8 := (s.qTail - s.qHead).isLt
  omega

theorem qEmpty_iff_qCount : s.qEmpty = true ↔ s.qCount = 0 := by
  rw [qEmpty_iff, State.qCount]
  constructor <;> intro h <;> bv_omega

theorem qFull_iff_qCount : s.qFull = true ↔ s.qCount = 7 := by
  rw [qFull_iff, State.qCount]
  constructor <;> intro h <;> bv_omega

theorem not_qEmpty_and_qFull (s : State) : ¬(s.qEmpty = true ∧ s.qFull = true) := by
  rw [qEmpty_iff_qCount, qFull_iff_qCount]
  omega

@[simp] theorem queued_length (s : State) : (queued s).length = s.qCount := by simp [queued]

theorem queued_eq_nil_iff : queued s = [] ↔ s.qEmpty = true := by
  rw [← List.length_eq_zero_iff, queued_length, qEmpty_iff_qCount]

/-- Settles O40: each law is one about the difference of the two indices in three bits. -/
theorem queueCountLaws : Obligations.QueueCountLaws := by
  unfold Obligations.QueueCountLaws
  intro s
  exact ⟨qEmpty_iff, qFull_iff, queued_length s, qCount_le s, qEmpty_iff_qCount, qFull_iff_qCount, not_qEmpty_and_qFull s⟩

-- the occupied slots

/-- The slots from the head on for the count end where the tail stands (R38). -/
theorem qHead_add_qCount (s : State) : s.qHead + BitVec.ofNat 3 s.qCount = s.qTail := by
  simp only [State.qCount, BitVec.ofNat_toNat, BitVec.setWidth_eq]
  bv_omega

/-- The slot that an enqueue writes holds no waiting record (R55, R58). -/
theorem occupied_ne_qTail {k : Nat} (hk : k < s.qCount) : s.qHead + BitVec.ofNat 3 k ≠ s.qTail := by
  have hlt : k < (s.qTail - s.qHead).toNat := hk
  bv_omega

theorem exec_keeps_occupied (h : exec i s = .next t) {k : Nat} (hk : k < s.qCount) :
    t.memRead (s.qHead + BitVec.ofNat 3 k) = s.memRead (s.qHead + BitVec.ofNat 3 k) :=
  exec_keeps_slot h (.inl (occupied_ne_qTail hk))

/-- Settles O44: only the slot at the tail can change, and no waiting record stands there. -/
theorem occupiedSlotsKept : Obligations.OccupiedSlotsKept := by
  unfold Obligations.OccupiedSlotsKept
  intro i s t h k hk
  exact exec_keeps_occupied h hk

-- the list of records

/-- The list depends on the two indices and the occupied slots only. -/
theorem queued_congr (hh : t.qHead = s.qHead) (ht : t.qTail = s.qTail)
    (hm : ∀ k < s.qCount, t.memRead (s.qHead + BitVec.ofNat 3 k) = s.memRead (s.qHead + BitVec.ofNat 3 k)) :
    queued t = queued s := by
  have hcount : t.qCount = s.qCount := by rw [State.qCount, State.qCount, hh, ht]
  rw [queued, queued, hcount, hh]
  exact List.map_congr_left fun k hk => hm k (List.mem_range.1 hk)

/-- An operation that moves neither index keeps the list. -/
theorem queued_of_indices_kept (h : exec i s = .next t) (hh : t.qHead = s.qHead) (ht : t.qTail = s.qTail) :
    queued t = queued s :=
  queued_congr hh ht fun _ hk => exec_keeps_occupied h hk

theorem qCount_enqueue (hf : s.qFull = false) (r : Slot) : (s.enqueue r).qCount = s.qCount + 1 := by
  rw [qFull_eq_false_iff] at hf
  simp only [State.qCount, State.enqueue_qTail, State.enqueue_qHead, inc8_eq]
  bv_omega

/-- With room, an enqueue appends its record (R55). -/
theorem queued_enqueue (hf : s.qFull = false) (r : Slot) : queued (s.enqueue r) = queued s ++ [r] := by
  have hkept : ∀ k ∈ List.range s.qCount,
      (s.enqueue r).memRead (s.qHead + BitVec.ofNat 3 k) = s.memRead (s.qHead + BitVec.ofNat 3 k) :=
    fun k hk => memRead_enqueue_other _ _ _ (occupied_ne_qTail (List.mem_range.1 hk))
  simp only [queued, qCount_enqueue hf, State.enqueue_qHead, List.range_succ, List.map_append, List.map_cons,
    List.map_nil, List.map_congr_left hkept, qHead_add_qCount, memRead_enqueue_tail]

theorem qCount_dequeue (he : s.qEmpty = false) : s.qCount = s.dequeue.2.qCount + 1 := by
  have hne : s.qHead ≠ s.qTail := by simpa [State.qEmpty] using he
  simp only [dequeue_eq, State.qCount, inc8_eq]
  bv_omega

/-- A dequeue takes the first record (R56). -/
theorem queued_dequeue (he : s.qEmpty = false) : queued s = s.dequeue.1 :: queued s.dequeue.2 := by
  have hnext : ∀ k, s.qHead + BitVec.ofNat 3 (k + 1) = inc8 s.qHead + BitVec.ofNat 3 k := by
    intro k
    rw [inc8_eq]
    bv_omega
  rw [queued, qCount_dequeue he, List.range_succ_eq_map, List.map_cons, List.map_map]
  congr 1
  · simp [dequeue_eq]
  · exact List.map_congr_left fun k _ => congrArg s.memRead (hnext k)

end Sys2Proof.Machine
end

section
/-! PROOFS. The queue as a list (R55 to R57): one rule for what each operation does to it, then the two orders of an enqueue
and a dequeue (R59, R60). -/

namespace Sys2Proof.Machine

variable {i : Instr} {s t : State}

@[simp] theorem queued_finish (s : State) (x : TraceRecord) : queued (s.finish x) = queued s := rfl

/-- After a dequeue there is room (R59). -/
theorem qFull_dequeue (he : s.qEmpty = false) : s.dequeue.2.qFull = false := by
  have hle := qCount_le s
  rw [← Bool.not_eq_true, qFull_iff_qCount]
  have := qCount_dequeue he
  omega

/-- After an enqueue with room a record waits (R59). -/
theorem qEmpty_enqueue (hf : s.qFull = false) (r : Slot) : (s.enqueue r).qEmpty = false := by
  rw [← Bool.not_eq_true, qEmpty_iff_qCount, qCount_enqueue hf]
  omega

/-- The argument byte completes a record (R118). -/
theorem accepted_of_room {d : Byte} (hs : s.state = .rc) (hf : s.qFull = false) :
    accepted (.busDataRx d) s = some (recordOf s.cmdLatch d) :=
  if_pos ⟨hs, hf⟩

/-- BUS_DATA_RX appends what it accepts (R118). -/
theorem execBusDataRx_queued {d : Byte} (h : execBusDataRx d s = .next t) :
    queued t = queued s ++ (accepted (.busDataRx d) s).toList := by
  obtain ⟨hs, -, rfl⟩ | ⟨hs, -, rfl⟩ | ⟨-, hf, rfl⟩ | ⟨hs, hf, rfl⟩ | ⟨-, hs, rfl⟩ := execBusDataRx_cases h
  case inr.inr.inr.inl =>
    rw [accepted_of_room hs hf]
    exact queued_enqueue hf _
  all_goals
    have hnone : accepted (.busDataRx d) s = none := by simp [accepted, *]
    rw [hnone]
    exact (List.append_nil _).symm

/-- Every operation but DISP_TAKE appends what it accepts (R55, R57). -/
theorem exec_queued (h : exec i s = .next t) (hi : i ≠ .dispTake) : queued t = queued s ++ (accepted i s).toList := by
  cases i with
  | dispTake => exact absurd rfl hi
  | busDataRx d => exact execBusDataRx_queued h
  | _ =>
    simpa [accepted] using queued_of_indices_kept h (qHead_eq_of_value (exec_keeps_unmarked h rfl))
      (qTail_eq_of_value (exec_keeps_unmarked h rfl))

/-- DISP_TAKE takes the first record into flight, if there is one (R56, R150). -/
theorem execDispTake_queued (h : execDispTake s = .next t) :
    s.inflight = none ∧ t.inflight = (queued s).head? ∧ queued t = (queued s).tail := by
  obtain ⟨hi, ⟨he, rfl⟩ | ⟨he, rfl⟩⟩ := execDispTake_cases h
  · simp [hi, queued_eq_nil_iff.2 he]
  · rw [queued_dequeue he]
    exact ⟨hi, rfl, rfl⟩

/-- Settles O42: DISP_TAKE is the list's head and tail, every other operation an append. -/
theorem ringRefinesFifo : Obligations.RingRefinesFifo := by
  unfold Obligations.RingRefinesFifo
  intro i s t h
  refine ⟨exec_queued h, ?empty, ?waiting⟩
  case empty =>
    rintro rfl hq
    obtain ⟨-, hflight, hqueued⟩ := execDispTake_queued h
    simp [hflight, hqueued, hq]
  case waiting =>
    rintro rfl r rs hq
    obtain ⟨-, hflight, hqueued⟩ := execDispTake_queued h
    simp [hflight, hqueued, hq]

/-- What an argument byte leaves, with room (R118). -/
def State.acceptArgument (s : State) (d : Byte) : State :=
  ((State.enqueue { s with argLatch := d } (recordOf s.cmdLatch d)).goto .rab).finish (.response .ack .none)

/-- What DISP_TAKE leaves, with a record waiting (R150). -/
def State.takeCommand (s : State) : State :=
  State.finish { s with qHead := inc8 s.qHead, inflight := some (s.memRead s.qHead) } .silent

theorem execBusDataRx_of_room {d : Byte} (hs : s.state = .rc) (hf : s.qFull = false) :
    execBusDataRx d s = .next (s.acceptArgument d) := by
  simp only [execBusDataRx, hs, State.receiveArgument, hf, Bool.false_eq_true, if_false]
  rfl

/-- The two orders: the enqueue writes the tail slot, which is not the one the dequeue reads, and each moves its own index. -/
theorem takeCommand_acceptArgument (he : s.qEmpty = false) (d : Byte) :
    s.takeCommand.acceptArgument d = { (s.acceptArgument d).takeCommand with trace := .response .ack .none } := by
  have hne : s.qHead ≠ s.qTail := by simpa [State.qEmpty] using he
  have hread : (s.acceptArgument d).memRead (s.acceptArgument d).qHead = s.memRead s.qHead :=
    memRead_enqueue_other _ _ _ hne
  rw [State.takeCommand, State.takeCommand, hread]
  rfl

/-- Two operations that complete make a run (R60). -/
theorem runOps_pair {j : Instr} {u : State} (h : exec i s = .next t) (h' : exec j t = .next u) :
    runOps [i, j] s = some ([t.trace, u.trace], u) := by
  simp [runOps, h, h']

/-- Settles O41: both operations complete in both orders, and the list gains at its end what it does not lose in front. -/
theorem enqueueAndDequeueCommute : Obligations.EnqueueAndDequeueCommute := by
  unfold Obligations.EnqueueAndDequeueCommute
  intro s d hs hf he hi
  have haccept : exec (.busDataRx d) s = .next (s.acceptArgument d) := execBusDataRx_of_room hs hf
  have htake : exec .dispTake (s.acceptArgument d) = .next (s.acceptArgument d).takeCommand :=
    execDispTake_of_waiting hi (qEmpty_enqueue (s := { s with argLatch := d }) hf (recordOf s.cmdLatch d))
  have htake' : exec .dispTake s = .next s.takeCommand := execDispTake_of_waiting hi he
  have haccept' : exec (.busDataRx d) s.takeCommand = .next (s.takeCommand.acceptArgument d) :=
    execBusDataRx_of_room hs (qFull_dequeue he)
  have hrun := runOps_pair haccept htake
  have hrun' := runOps_pair htake' haccept'
  refine ⟨_, _, _, _, hrun, hrun', takeCommand_acceptArgument he d, ?_⟩
  obtain ⟨-, hflight, hqueued⟩ := execDispTake_queued htake
  have happend : queued (s.acceptArgument d) = queued s ++ [recordOf s.cmdLatch d] := queued_enqueue hf _
  rw [hflight, hqueued, happend, queued_dequeue he]
  exact ⟨rfl, rfl⟩

end Sys2Proof.Machine
end

section
/-! PROOFS. What the handlers are called with, over a run (R57, R72, R158): each operation moves records along or takes one
in, and a run adds up its operations. -/

namespace Sys2Proof.Machine

variable {i : Instr} {s t : State}

/-- Only DISP_EXEC calls a handler (R153). -/
theorem handlerCall_eq_none (h : exec i s = .next t) (hi : ∀ r, i ≠ .dispExec r) : handlerCall t.trace = none := by
  have hcall := (exec_outputsDriven h).handler
  have hnone : ¬(t.trace.writeCall ≠ none ∨ t.trace.readCall ≠ none) :=
    fun hx => let ⟨r, hr⟩ := hcall.1 hx; hi r hr
  simp only [not_or, not_not] at hnone
  simp [handlerCall, hnone]

@[simp] theorem handlerCall_readHandler (r : Slot) : handlerCall (.readHandler r) = some r := by
  simp [handlerCall, TraceRecord.readHandler, recordOf_parts]

@[simp] theorem handlerCall_writeHandler (r : Slot) : handlerCall (.writeHandler r) = some r := by
  simp [handlerCall, TraceRecord.writeHandler, TraceRecord.silent, recordOf_parts]

/-- DISP_EXEC calls a handler with the record in flight, and it is in flight no more (R153). -/
theorem execDispExec_inflight {a : Byte} (h : execDispExec a s = .next t) :
    handlerCall t.trace = s.inflight ∧ t.inflight = none := by
  obtain ⟨r, hi, ⟨-, rfl⟩ | ⟨-, rfl⟩⟩ := execDispExec_cases h <;> simp [hi]

/-- One operation: what it hands to a handler and what is outstanding after it, against before (R57). -/
theorem exec_conserves (h : exec i s = .next t) :
    (handlerCall t.trace).toList ++ outstanding t = outstanding s ++ (accepted i s).toList := by
  cases i with
  | dispTake =>
    obtain ⟨hs, ht, hq⟩ := execDispTake_queued h
    have hcall : handlerCall t.trace = none := handlerCall_eq_none h (by simp)
    cases hl : queued s <;> simp [outstanding, accepted, hcall, hs, ht, hq, hl]
  | dispExec a =>
    obtain ⟨hcall, hnone⟩ := execDispExec_inflight h
    simp [outstanding, hcall, hnone, exec_queued h (by simp)]
  | _ =>
    have hkept : t.inflight = s.inflight := inflight_eq_of_value (exec_keeps_unmarked h rfl)
    simp [outstanding, handlerCall_eq_none h (by simp), hkept, exec_queued h (by simp)]

theorem filterMap_handlerCall_cons (x : TraceRecord) (xs : List TraceRecord) :
    (x :: xs).filterMap handlerCall = (handlerCall x).toList ++ xs.filterMap handlerCall := by
  cases h : handlerCall x <;> simp [h]

/-- What a run accepts is what its first operation accepts and then the rest. -/
theorem acceptedIn_cons (h : exec i s = .next t) (is : List Instr) :
    acceptedIn (i :: is) s = (accepted i s).toList ++ acceptedIn is t := by
  rw [acceptedIn, h]

/-- Settles O43, by induction on the operations of the run: the conservation of one operation and that of the rest. -/
theorem fifoConservation : Obligations.FifoConservation := by
  unfold Obligations.FifoConservation
  intro is
  induction is with
  | nil =>
    intro s t ts h
    obtain ⟨rfl, rfl⟩ : [] = ts ∧ s = t := by simpa [runOps] using h
    simp [acceptedIn]
  | cons i is ih =>
    intro s t ts h
    obtain ⟨u, us, hexec, hrest, rfl⟩ := (runOps_cons ..).1 h
    calc (u.trace :: us).filterMap handlerCall ++ outstanding t
      _ = (handlerCall u.trace).toList ++ (us.filterMap handlerCall ++ outstanding t) := by
        rw [filterMap_handlerCall_cons, List.append_assoc]
      _ = ((handlerCall u.trace).toList ++ outstanding u) ++ acceptedIn is u := by
        rw [ih u t us hrest, List.append_assoc]
      _ = outstanding s ++ acceptedIn (i :: is) s := by
        rw [exec_conserves hexec, acceptedIn_cons hexec, List.append_assoc]

end Sys2Proof.Machine
end

section
/-! PROOFS. The invariant of the reachable states (R72, R145, R209, R30 to R36): one rule for each change that the operations
are made of, then each operation from its rule's cases. -/

namespace Sys2Proof.Machine

variable {i : Instr} {s t : State}

/-- A timer's period is at least one tick (R7). -/
theorem Inv.periods_pos (h : Inv s) : 0 < s.cfg.nBurst ∧ 0 < s.cfg.mEvt := by
  simpa [Config.wf, Nat.succ_le_iff] using h.cfg_wf

-- the changes that the operations are made of

theorem Inv.finish (h : Inv s) (x : TraceRecord) : Inv (s.finish x) := { h with }

theorem Inv.setIssued (h : Inv s) (ws : List Word) : Inv { s with issued := ws } := { h with }

theorem Inv.setAddr (h : Inv s) (a : BusAddr) : Inv (s.setAddr a) := { h with }

theorem Inv.setArgLatch (h : Inv s) (d : Byte) : Inv { s with argLatch := d } := { h with }

theorem Inv.setReadResult (h : Inv s) (d : Byte) : Inv { s with readResult := d } := { h with }

theorem Inv.clearInflight (h : Inv s) : Inv { s with inflight := none } :=
  { h with inflight_nonzero := by simp }

/-- Only a command byte that R117 accepts is latched. -/
theorem Inv.setCmdLatch (h : Inv s) {d : Byte} (hd : d ≠ 0x00) : Inv { s with cmdLatch := d } :=
  { h with command_latched := fun _ => hd }

/-- The engine may go where it has named a state, kept room and latched a command (R145). -/
theorem Inv.goto (h : Inv s) {b : BusState} (hb : b ≠ .unused6 ∧ b ≠ .unused7)
    (hroom : b = .wrc ∨ b = .rc → s.qFull = false) (hcmd : b = .rc → s.cmdLatch ≠ 0x00) : Inv (s.goto b) :=
  { h with state_named := hb, write_room := hroom, command_latched := hcmd }

/-- A bus event that ends in no receiving state keeps the invariant. -/
theorem Inv.answered (h : Inv s) {b : BusState} (hb : b = .idle ∨ b = .rrc ∨ b = .trv) (x : TraceRecord) :
    Inv ((s.goto b).finish x) := by
  rcases hb with rfl | rfl | rfl <;> exact (h.goto (by simp) (by simp) (by simp)).finish x

/-- An enqueue with room, once the argument byte has ended the reception (R118). -/
theorem Inv.enqueue (h : Inv s) (hs : s.state ≠ .wrc ∧ s.state ≠ .rc) (hf : s.qFull = false) {r : Slot}
    (hr : recCommand r ≠ 0x00) : Inv (s.enqueue r) :=
  { h with
    write_room := fun hreceiving => absurd hreceiving (not_or.2 hs)
    queued_nonzero := by
      rw [queued_enqueue hf]
      intro x hx
      rcases List.mem_append.1 hx with hold | hnew
      · exact h.queued_nonzero x hold
      · rwa [List.mem_singleton.1 hnew] }

/-- DISP_TAKE leaves room and takes a record that the invariant speaks of already (R150). -/
theorem Inv.takeCommand (h : Inv s) (he : s.qEmpty = false) : Inv s.takeCommand := by
  have hq := h.queued_nonzero
  rw [queued_dequeue he, List.forall_mem_cons] at hq
  exact { h with
    write_room := fun _ => qFull_dequeue he
    queued_nonzero := hq.2
    inflight_nonzero := fun r hr => Option.some.inj hr ▸ hq.1 }

/-- `EvtRelease()` (R205). -/
theorem Inv.releaseEvt (h : Inv s) : Inv s.releaseEvt :=
  { h with
    line_timed := rfl
    evt_stopped := fun _ => rfl
    evt_range := h.periods_pos.2 }

/-- EVT_ASSERT raises the line with its timer (R200). -/
theorem Inv.assertEvt (h : Inv s) : Inv { s with evtLine := true, evtArmed := true, evtTicks := 0 } :=
  { h with
    line_timed := rfl
    evt_stopped := fun hstopped => absurd hstopped (by simp)
    evt_range := h.periods_pos.2 }

theorem Inv.setEvtTicks (h : Inv s) (ha : s.evtArmed = true) {n : Nat} (hn : n < s.cfg.mEvt) :
    Inv { s with evtTicks := n } :=
  { h with
    evt_stopped := fun hstopped => absurd (ha.symm.trans hstopped) (by simp)
    evt_range := hn }

/-- A running burst timer has a count and stands in its range (R30, R31, R176). -/
theorem Inv.runBurst (h : Inv s) {p : Byte} (hp : p ≠ 0) {n : Nat} (hn : n < s.cfg.nBurst) :
    Inv { s with pulseCount := p, burstArmed := true, burstTicks := n } :=
  { h with
    burst_stopped := fun hstopped => absurd hstopped (by simp)
    burst_counted := fun _ => hp
    burst_range := hn }

theorem Inv.setBurstTicks (h : Inv s) (ha : s.burstArmed = true) {n : Nat} (hn : n < s.cfg.nBurst) :
    Inv { s with burstTicks := n } := by
  simpa [← ha] using h.runBurst (h.burst_counted ha) hn

theorem Inv.stopBurst (h : Inv s) : Inv { s with pulseCount := 0, burstArmed := false, burstTicks := 0 } :=
  { h with
    burst_stopped := fun _ => ⟨rfl, rfl⟩
    burst_counted := fun harmed => absurd harmed (by simp)
    burst_range := h.periods_pos.1 }

theorem Inv.setPending (h : Inv s) {n : Byte} (hn : validCount n = true) : Inv { s with assignPending := some n } :=
  { h with pending_valid := fun _ hm => Option.some.inj hm ▸ hn }

theorem Inv.clearPending (h : Inv s) : Inv { s with assignPending := none } :=
  { h with pending_valid := by simp }

theorem Inv.setEmit (h : Inv s) {n : EmitCount} (hn : n.toNat ≤ 256) : Inv { s with emitRemaining := n } :=
  { h with emit_range := hn }

-- the ranges of the counts

/-- The saturating count is not zero after an edge (R9, R170). -/
theorem sat8_succ_ne_zero (n : Nat) : sat8 (n + 1) ≠ 0 := by
  intro h
  have hval : min (n + 1) 255 % 256 = 0 := congrArg BitVec.toNat h
  omega

/-- A valid count is at most 254 and sends at most 256 pulses (R174, R180). -/
theorem emitOfCount_le {n : Byte} (hn : validCount n = true) : (emitOfCount n).toNat ≤ 256 := by
  have hlt : n.toNat < 256 := n.isLt
  simp only [validCount, Bool.and_eq_true, beq_iff_eq] at hn
  simp only [emitOfCount, BitVec.toNat_ofNat]
  omega

-- the operations

theorem execBusAddrRx_keeps_inv (h : Inv s) (ht : execBusAddrRx s = .next t) : Inv t := by
  obtain ⟨-, -, rfl⟩ | ⟨-, hf, rfl⟩ | ⟨-, rfl⟩ := execBusAddrRx_cases ht
  · exact h.answered (by simp) _
  · exact (h.goto (by simp) (fun _ => hf) (by simp)).finish _
  · exact h.answered (by simp) _

theorem execBusDataRx_keeps_inv {d : Byte} (h : Inv s) (ht : execBusDataRx d s = .next t) : Inv t := by
  obtain ⟨-, -, rfl⟩ | ⟨hs, hd, rfl⟩ | ⟨-, -, rfl⟩ | ⟨hs, hf, rfl⟩ | ⟨-, -, rfl⟩ := execBusDataRx_cases ht
  · exact h.answered (by simp) _
  · exact ((h.setCmdLatch hd).goto (by simp) (fun _ => h.write_room (.inl hs)) (fun _ => hd)).finish _
  · exact (h.setArgLatch d).answered (by simp) _
  · have hrec : recCommand (recordOf s.cmdLatch d) ≠ 0x00 := by simpa using h.command_latched hs
    have hleft : Inv ((State.goto { s with argLatch := d } .rab).enqueue (recordOf s.cmdLatch d)) :=
      ((h.setArgLatch d).goto (by simp) (by simp) (by simp)).enqueue (by simp) hf hrec
    exact hleft.finish _
  · exact h.answered (by simp) _

theorem execDispTake_keeps_inv (h : Inv s) (ht : execDispTake s = .next t) : Inv t := by
  obtain ⟨-, ⟨-, rfl⟩ | ⟨he, rfl⟩⟩ := execDispTake_cases ht
  · exact h.finish _
  · exact h.takeCommand he

theorem execDispExec_keeps_inv {a : Byte} (h : Inv s) (ht : execDispExec a s = .next t) : Inv t := by
  obtain ⟨r, -, ⟨-, rfl⟩ | ⟨-, rfl⟩⟩ := execDispExec_cases ht
  · exact ((h.setReadResult a).clearInflight).finish _
  · exact h.clearInflight.finish _

theorem Inv.completeBurst (h : Inv s) : Inv s.completeBurst := by
  unfold State.completeBurst
  split
  · exact (h.stopBurst.setPending ‹_›).finish _
  · exact h.stopBurst.finish _

theorem execAddrTick_keeps_inv (h : Inv s) (ht : execAddrTick s = .next t) : Inv t := by
  obtain ⟨-, rfl⟩ | ⟨ha, hn, rfl⟩ | ⟨-, -, rfl⟩ := execAddrTick_cases ht
  · exact h.finish _
  · exact (h.setBurstTicks ha hn).finish _
  · exact h.completeBurst

theorem Inv.commitAssignment (h : Inv s) {n : Byte} (hn : validCount n = true) : Inv (s.commitAssignment n) :=
  (((h.setAddr (deviceAddress s.cfg.deviceClass (indexOfCount n))).setEmit (emitOfCount_le hn)).clearPending).finish _

theorem execAddrCommit_keeps_inv (h : Inv s) (ht : execAddrCommit s = .next t) : Inv t := by
  obtain ⟨-, rfl⟩ | ⟨n, hp, -, rfl⟩ := execAddrCommit_cases ht
  · exact h.finish _
  · exact h.commitAssignment (h.pending_valid n hp)

theorem execAddrEmit_keeps_inv (h : Inv s) (ht : execAddrEmit s = .next t) : Inv t := by
  obtain ⟨-, rfl⟩ | ⟨hne, rfl⟩ := execAddrEmit_cases ht
  · exact h.finish _
  · have hle := h.emit_range
    exact (h.setEmit (by bv_omega)).finish _

theorem execEvtTick_keeps_inv (h : Inv s) (ht : execEvtTick s = .next t) : Inv t := by
  obtain ⟨-, rfl⟩ | ⟨ha, hn, rfl⟩ | ⟨-, -, rfl⟩ := execEvtTick_cases ht
  · exact h.finish _
  · exact (h.setEvtTicks ha hn).finish _
  · exact h.releaseEvt.finish _

/-- Every operation keeps the invariant. -/
theorem exec_keeps_inv (h : Inv s) (ht : exec i s = .next t) : Inv t := by
  cases i with
  | busAddrRx => exact execBusAddrRx_keeps_inv h ht
  | busDataRx d => exact execBusDataRx_keeps_inv h ht
  | busStop => obtain rfl := answer_inj ht; exact h.answered (by simp) _
  | busAddrTx =>
    obtain rfl := Host.Outcome.next.inj ht
    exact (h.setReadResult 0x00).releaseEvt.answered (by simp) _
  | busDataTx => obtain ⟨-, rfl⟩ | ⟨-, rfl⟩ := execBusDataTx_cases ht <;> exact h.answered (by simp) _
  | busOther _ => obtain rfl := answer_inj ht; exact h.answered (by simp) _
  | reinit a => obtain ⟨-, rfl⟩ := execReinit_cases ht; exact (h.setAddr a).finish _
  | dispTake => exact execDispTake_keeps_inv h ht
  | dispExec a => exact execDispExec_keeps_inv h ht
  | addrFall =>
    obtain rfl := Host.Outcome.next.inj ht
    exact (h.runBurst (sat8_succ_ne_zero _) h.periods_pos.1).finish _
  | addrTick => exact execAddrTick_keeps_inv h ht
  | addrCommit => exact execAddrCommit_keeps_inv h ht
  | addrEmit => exact execAddrEmit_keeps_inv h ht
  | evtAssert => obtain rfl := Host.Outcome.next.inj ht; exact h.assertEvt.finish _
  | evtRelease => obtain rfl := Host.Outcome.next.inj ht; exact h.releaseEvt.finish _
  | evtTick => exact execEvtTick_keeps_inv h ht

/-- Settles O38: a step waits or takes a word and runs its operation, and each of these keeps the invariant. -/
theorem stepKeepsInvariant : Obligations.StepKeepsInvariant := by
  unfold Obligations.StepKeepsInvariant
  intro s t h hstep
  obtain ⟨-, rfl⟩ | ⟨w, rest, i, -, -, hexec⟩ := step_cases hstep
  · exact h.finish _
  · exact exec_keeps_inv (h.setIssued rest) hexec

end Sys2Proof.Machine
end

section
/-! PROOFS. The fields that no operation but the arbiter or DISP_EXEC looks at: the issued words (R60) and `READ_SET` (R64).
An operation does the same with other contents there; so the machine's run over issued words is the run of their operations. -/

namespace Sys2Proof.Machine

variable {i : Instr} {s t : State}

/-- The same registers beside another `READ_SET` and other issued words. -/
def State.withOuter (s : State) (readSet : Vector Byte 8) (ws : List Word) : State :=
  { s with cfg := { s.cfg with readSet := readSet }, issued := ws }

/-- An outcome with its next state, if there is one, replaced. -/
def mapNext (f : State → State) : Host.Outcome State Fault Refusal → Host.Outcome State Fault Refusal
  | .next t => .next (f t)
  | .fault e => .fault e
  | .refused e => .refused e

/-- Two branches under one condition map branch by branch. -/
theorem mapNext_ite (f : State → State) (p : Prop) [Decidable p] (a b : Host.Outcome State Fault Refusal) :
    mapNext f (if p then a else b) = if p then mapNext f a else mapNext f b := by
  split <;> rfl

theorem execBusAddrRx_withOuter (rs : Vector Byte 8) (ws : List Word) :
    execBusAddrRx (s.withOuter rs ws) = mapNext (·.withOuter rs ws) (execBusAddrRx s) := by
  unfold execBusAddrRx
  rw [show (s.withOuter rs ws).state = s.state from rfl]
  cases s.state with
  | idle => simp only [mapNext_ite]; rfl
  | _ => rfl

theorem execBusDataRx_withOuter (d : Byte) (rs : Vector Byte 8) (ws : List Word) :
    execBusDataRx d (s.withOuter rs ws) = mapNext (·.withOuter rs ws) (execBusDataRx d s) := by
  unfold execBusDataRx
  rw [show (s.withOuter rs ws).state = s.state from rfl]
  cases s.state with
  | wrc | rc => simp only [State.receiveCommand, State.receiveArgument, mapNext_ite]; rfl
  | _ => rfl

theorem execBusDataTx_withOuter (rs : Vector Byte 8) (ws : List Word) :
    execBusDataTx (s.withOuter rs ws) = mapNext (·.withOuter rs ws) (execBusDataTx s) := by
  unfold execBusDataTx
  rw [show (s.withOuter rs ws).state = s.state from rfl]
  cases s.state <;> rfl

theorem execDispTake_withOuter (rs : Vector Byte 8) (ws : List Word) :
    execDispTake (s.withOuter rs ws) = mapNext (·.withOuter rs ws) (execDispTake s) := by
  unfold execDispTake
  rw [show (s.withOuter rs ws).inflight = s.inflight from rfl]
  cases s.inflight with
  | some r => rfl
  | none => simp only [mapNext_ite]; rfl

/-- DISP_EXEC reads `READ_SET`, which is to be the same, and not the issued words (R64). -/
theorem execDispExec_withOuter (a : Byte) (ws : List Word) :
    execDispExec a (s.withOuter s.cfg.readSet ws) = mapNext (·.withOuter s.cfg.readSet ws) (execDispExec a s) := by
  unfold execDispExec
  rw [show (s.withOuter s.cfg.readSet ws).inflight = s.inflight from rfl]
  cases s.inflight with
  | none => rfl
  | some r => simp only [mapNext_ite]; rfl

theorem completeBurst_withOuter (rs : Vector Byte 8) (ws : List Word) :
    (s.withOuter rs ws).completeBurst = s.completeBurst.withOuter rs ws := by
  unfold State.completeBurst
  rw [show (s.withOuter rs ws).pulseCount = s.pulseCount from rfl]
  split <;> rfl

theorem execAddrTick_withOuter (rs : Vector Byte 8) (ws : List Word) :
    execAddrTick (s.withOuter rs ws) = mapNext (·.withOuter rs ws) (execAddrTick s) := by
  simp only [execAddrTick, mapNext_ite, completeBurst_withOuter]
  rfl

theorem execAddrCommit_withOuter (rs : Vector Byte 8) (ws : List Word) :
    execAddrCommit (s.withOuter rs ws) = mapNext (·.withOuter rs ws) (execAddrCommit s) := by
  unfold execAddrCommit
  rw [show (s.withOuter rs ws).assignPending = s.assignPending from rfl]
  cases s.assignPending with
  | none => rfl
  | some n => simp only [mapNext_ite]; rfl

theorem execEvtTick_withOuter (rs : Vector Byte 8) (ws : List Word) :
    execEvtTick (s.withOuter rs ws) = mapNext (·.withOuter rs ws) (execEvtTick s) := by
  simp only [execEvtTick, mapNext_ite]
  rfl

/-- Every operation does the same beside other issued words, and all but DISP_EXEC beside another `READ_SET`. -/
theorem exec_withOuter {rs : Vector Byte 8} (h : (∀ a, i ≠ .dispExec a) ∨ rs = s.cfg.readSet) (ws : List Word) :
    exec i (s.withOuter rs ws) = mapNext (·.withOuter rs ws) (exec i s) := by
  cases i with
  | busAddrRx => exact execBusAddrRx_withOuter rs ws
  | busDataRx d => exact execBusDataRx_withOuter d rs ws
  | busDataTx => exact execBusDataTx_withOuter rs ws
  | reinit a => simp only [exec, execReinit, mapNext_ite]; rfl
  | dispTake => exact execDispTake_withOuter rs ws
  | dispExec a =>
    obtain rfl := h.resolve_left fun hne => hne a rfl
    exact execDispExec_withOuter a ws
  | addrTick => exact execAddrTick_withOuter rs ws
  | addrCommit => exact execAddrCommit_withOuter rs ws
  | addrEmit => simp only [exec, execAddrEmit, mapNext_ite]; rfl
  | evtTick => exact execEvtTick_withOuter rs ws
  | busStop | busAddrTx | busOther _ | addrFall | evtAssert | evtRelease => rfl

-- the read classification

/-- The read-command list slot by slot: a byte of it stands in a slot with no byte 0x00 there or before (R64). -/
theorem mem_readList_iff {readSet : Vector Byte 8} {c : Byte} :
    c ∈ readList readSet ↔ ∃ i : Fin 8, readSet[i] = c ∧ ∀ j ≤ i, readSet[j] ≠ 0x00 := by
  rw [readList, List.takeWhile_eq_take_findIdx_not, List.mem_take_iff_getElem]
  constructor
  · rintro ⟨i, hi, rfl⟩
    obtain ⟨hfind, hlen⟩ := Nat.lt_min.1 hi
    obtain ⟨_, hprefix⟩ := (List.lt_findIdx_iff ..).1 hfind
    exact ⟨⟨i, by simpa using hlen⟩, by simp, fun j hj => by simpa using hprefix j hj⟩
  · rintro ⟨i, rfl, hprefix⟩
    have hfind : i.val < readSet.toList.findIdx (fun a => !(a != 0x00)) :=
      (List.lt_findIdx_iff ..).2 ⟨by simp, fun j hj => by simpa using hprefix ⟨j, by omega⟩ hj⟩
    exact ⟨i, Nat.lt_min.2 ⟨hfind, by simp⟩, by simp⟩

theorem isRead_iff {cfg : Config} {c : Byte} :
    isRead cfg c = true ↔ c ≠ 0x00 ∧ ∃ i : Fin 8, cfg.readSet[i] = c ∧ ∀ j < i, cfg.readSet[j] ≠ 0x00 := by
  simp only [isRead, Bool.and_eq_true, bne_iff_ne, List.contains_iff_mem, mem_readList_iff]
  refine and_congr_right fun hc => exists_congr fun i => and_congr_right fun hi => ?_
  constructor
  · exact fun h j hj => h j hj.le
  · intro h j hj
    rcases hj.lt_or_eq with hlt | rfl
    · exact h j hlt
    · rwa [hi]

/-- Settles O22: the list slot by slot, and every other operation beside any `READ_SET`. -/
theorem readClassification : Obligations.ReadClassification := by
  unfold Obligations.ReadClassification
  refine ⟨fun cfg c => isRead_iff, fun i s readSet hi => ?_⟩
  have hexec : exec i { s with cfg := { s.cfg with readSet := readSet } } =
      mapNext (·.withOuter readSet s.issued) (exec i s) := exec_withOuter (.inl hi) s.issued
  rw [hexec]
  refine ⟨fun t ht => ?next, fun e he => ?refused⟩
  case next =>
    have hissued : t.issued = s.issued := (exec_sameChange ht).issued
    rw [ht, ← hissued]
    rfl
  case refused => rw [he, mapNext]

end Sys2Proof.Machine
end

section
/-! PROOFS. The machine's run over issued words (R12, R60). -/

namespace Sys2Proof.Machine

variable {i : Instr} {s t : State}

/-- A bus address keeps its seven bits in the data byte (R83). -/
theorem extractLsb'_setWidth_addr (a : BusAddr) : (a.setWidth 8).extractLsb' 0 7 = a := by
  ext i hi
  have hi8 : i < 8 := by omega
  simp [hi8, BitVec.getLsbD_eq_getElem hi]

/-- The word of an operation decodes to it (R85). -/
theorem decode_encode_self (i : Instr) : decode (encode i) = .op i := by
  rw [decode, Laws.ofWord_encode]
  cases i with
  | reinit a => simp [Instr.raw, RawOp.addressCheck, RawOp.operandCheck, RawOp.instr, extractLsb'_setWidth_addr]
  | _ => rfl

/-- An operation that completes does so beside any issued words, to the same next state. -/
theorem exec_withIssued (h : exec i s = .next t) (ws : List Word) :
    exec i { s with issued := ws } = .next { t with issued := ws } := by
  have hexec : exec i { s with issued := ws } = mapNext (·.withOuter s.cfg.readSet ws) (exec i s) :=
    exec_withOuter (.inr rfl) ws
  have hcfg : t.cfg = s.cfg := (exec_sameChange h).cfg
  rw [hexec, h, ← hcfg]
  rfl

/-- A run of a machine is its first step and the run from there. -/
theorem run_succ (M : Host.Core) (n : Nat) (s t : M.State) :
    M.run (n + 1) s = .next t ↔ ∃ u, M.step s = .next u ∧ M.run n u = .next t := by
  rw [Host.Core.run]
  cases M.step s <;> simp

theorem coreRun_succ (n : Nat) (s t : State) :
    core.run (n + 1) s = .next t ↔ ∃ u : State, step s = .next u ∧ core.run n u = .next t :=
  run_succ core n s t

theorem coreRun_zero (s t : State) : core.run 0 s = .next t ↔ s = t :=
  iff_of_eq (Host.Outcome.next.injEq (φ := Fault) (ρ := Refusal) s t)

/-- Settles O10, by induction on the operations: the word in front decodes to the operation in front, which runs the same
beside the words that are still to come as beside `rest`. -/
theorem issuedWordsRunInOrder : Obligations.IssuedWordsRunInOrder := by
  unfold Obligations.IssuedWordsRunInOrder
  intro is rest
  induction is with
  | nil =>
    rintro s t rfl
    refine (coreRun_zero s t).trans ?_
    simp [runOps]
  | cons i is ih =>
    intro s t hissued
    have hstep : step s = exec i { s with issued := is.map encode ++ rest } :=
      step_of_issued_op hissued (decode_encode_self i)
    refine (coreRun_succ is.length s t).trans ?_
    simp only [hstep, runOps_cons]
    constructor
    · rintro ⟨v, hexec, hrun⟩
      obtain ⟨us, hops⟩ := (ih v t (exec_sameChange hexec).issued).1 hrun
      exact ⟨_, _, us, exec_withIssued hexec rest, hops, rfl⟩
    · rintro ⟨_, u, us, hexec, hops, rfl⟩
      have hu : u.issued = rest := (exec_sameChange hexec).issued
      refine ⟨_, exec_withIssued hexec (is.map encode ++ rest), (ih _ t rfl).2 ⟨us, ?_⟩⟩
      rw [← hops, ← hu]

end Sys2Proof.Machine
end

section
/-! PROOFS. Where a command byte came from (R72 (3), R145): what the engine's two receiving states say of the bus events so
far, operation by operation from the end of the run. -/

namespace Sys2Proof.Machine

variable {i : Instr} {s t : State} {is : List Instr} {ts : List TraceRecord}

/-- The last bus event so far is an accepted BUS_ADDR_RX. -/
def AddressAcceptedLast (is : List Instr) (ts : List TraceRecord) : Prop :=
  ∃ a b ra rb r, is = a ++ .busAddrRx :: b ∧ ts = ra ++ r :: rb ∧ ra.length = a.length ∧
    r.busResp = some .ack ∧ r.cause = .none ∧ busEvents b = []

/-- The last two bus events so far are an accepted BUS_ADDR_RX and the data byte `d`, accepted too. -/
def CommandAcceptedLast (d : Byte) (is : List Instr) (ts : List TraceRecord) : Prop :=
  ∃ a b c ra rb rc r u, is = a ++ .busAddrRx :: (b ++ .busDataRx d :: c) ∧
    ts = ra ++ r :: (rb ++ u :: rc) ∧ ra.length = a.length ∧ rb.length = b.length ∧
    r.busResp = some .ack ∧ r.cause = .none ∧ u.busResp = some .ack ∧ u.cause = .none ∧
    busEvents b = [] ∧ busEvents c = []

/-- What the two receiving states say of the run that led to them. -/
structure Provenance (is : List Instr) (ts : List TraceRecord) (t : State) : Prop where
  wrc : t.state = .wrc → AddressAcceptedLast is ts
  rc : t.state = .rc → t.cmdLatch ≠ 0x00 ∧ CommandAcceptedLast t.cmdLatch is ts

theorem busEvents_concat (hi : agentOf i ≠ .busPeripheral) : busEvents (is ++ [i]) = busEvents is := by
  simp [busEvents, hi]

/-- Running one operation more at the end (R60). -/
theorem runOps_concat : runOps (is ++ [i]) s = some (ts, t) ↔
    ∃ u us, runOps is s = some (us, u) ∧ exec i u = .next t ∧ ts = us ++ [t.trace] := by
  rw [runOps_append]
  constructor
  · rintro ⟨u, us, vs, hrun, hlast, rfl⟩
    obtain ⟨v, ws, hexec, hnil, rfl⟩ := (runOps_cons ..).1 hlast
    obtain ⟨rfl, rfl⟩ : [] = ws ∧ v = t := by simpa [runOps] using hnil
    exact ⟨u, us, hrun, hexec, rfl⟩
  · rintro ⟨u, us, hrun, hexec, rfl⟩
    exact ⟨u, us, [t.trace], hrun, by simp [runOps, hexec], rfl⟩

-- operations that are no bus events

theorem AddressAcceptedLast.concat (h : AddressAcceptedLast is ts) (hi : agentOf i ≠ .busPeripheral) (x : TraceRecord) :
    AddressAcceptedLast (is ++ [i]) (ts ++ [x]) := by
  obtain ⟨a, b, ra, rb, r, rfl, rfl, hlen, hresp, hcause, hb⟩ := h
  exact ⟨a, b ++ [i], ra, rb ++ [x], r, by simp, by simp, hlen, hresp, hcause, (busEvents_concat hi).trans hb⟩

theorem CommandAcceptedLast.concat {d : Byte} (h : CommandAcceptedLast d is ts) (hi : agentOf i ≠ .busPeripheral)
    (x : TraceRecord) : CommandAcceptedLast d (is ++ [i]) (ts ++ [x]) := by
  obtain ⟨a, b, c, ra, rb, rc, r, u, rfl, rfl, hlen, hlen', hresp, hcause, hresp', hcause', hb, hc⟩ := h
  exact ⟨a, b, c ++ [i], ra, rb, rc ++ [x], r, u, by simp, by simp, hlen, hlen', hresp, hcause, hresp', hcause', hb,
    (busEvents_concat hi).trans hc⟩

/-- Only bus events move the engine or write its latch (R42). -/
theorem exec_keeps_engine (h : exec i s = .next t) (hi : agentOf i ≠ .busPeripheral) :
    t.state = s.state ∧ t.cmdLatch = s.cmdLatch := by
  have hunmarked : mayWrite i .state = false ∧ mayWrite i .cmdLatch = false := by
    cases i with
    | busAddrRx | busDataRx _ | busStop | busAddrTx | busDataTx | busOther _ => exact absurd rfl hi
    | _ => exact ⟨rfl, rfl⟩
  exact ⟨state_eq_of_value (exec_keeps_unmarked h hunmarked.1), cmdLatch_eq_of_value (exec_keeps_unmarked h hunmarked.2)⟩

-- bus events

/-- A bus event ends in a receiving state only as R113's accepted address or as R117's accepted command byte. -/
theorem exec_into_receiving (h : exec i s = .next t) (hi : agentOf i = .busPeripheral)
    (ht : t.state = .wrc ∨ t.state = .rc) :
    (i = .busAddrRx ∧ t = (s.goto .wrc).finish (.response .ack .none)) ∨
    ∃ d, i = .busDataRx d ∧ d ≠ 0x00 ∧ s.state = .wrc ∧
      t = (State.goto { s with cmdLatch := d } .rc).finish (.response .ack .none) := by
  cases i with
  | busAddrRx =>
    obtain ⟨-, -, rfl⟩ | ⟨-, -, rfl⟩ | ⟨-, rfl⟩ := execBusAddrRx_cases h
    · simp at ht
    · exact .inl ⟨rfl, rfl⟩
    · simp at ht
  | busDataRx d =>
    obtain ⟨-, -, rfl⟩ | ⟨hs, hd, rfl⟩ | ⟨-, -, rfl⟩ | ⟨-, -, rfl⟩ | ⟨-, -, rfl⟩ := execBusDataRx_cases h
    case inr.inl => exact .inr ⟨d, rfl, hd, hs, rfl⟩
    all_goals simp at ht
  | busStop => obtain rfl := answer_inj h; simp at ht
  | busAddrTx => obtain rfl := Host.Outcome.next.inj h; simp at ht
  | busDataTx => obtain ⟨-, rfl⟩ | ⟨-, rfl⟩ := execBusDataTx_cases h <;> simp at ht
  | busOther _ => obtain rfl := answer_inj h; simp at ht
  | _ => cases hi

/-- An accepted address is the last bus event when it has just run (R113). -/
theorem addressAcceptedLast_concat (hlen : ts.length = is.length) :
    AddressAcceptedLast (is ++ [.busAddrRx]) (ts ++ [.response .ack .none]) :=
  ⟨is, [], ts, [], _, rfl, rfl, hlen, rfl, rfl, rfl⟩

/-- A command byte that follows an accepted address, with no bus event between, is the second of the two (R117). -/
theorem AddressAcceptedLast.concat_command (h : AddressAcceptedLast is ts) (hlen : ts.length = is.length) (d : Byte) :
    CommandAcceptedLast d (is ++ [.busDataRx d]) (ts ++ [.response .ack .none]) := by
  obtain ⟨a, b, ra, rb, r, rfl, rfl, hra, hresp, hcause, hb⟩ := h
  have hrb : rb.length = b.length := by simpa [hra] using hlen
  exact ⟨a, b, [], ra, rb, [], r, .response .ack .none, by simp, by simp, hra, hrb, hresp, hcause, rfl, rfl, hb, rfl⟩

/-- One operation more keeps the provenance. -/
theorem Provenance.concat (h : Provenance is ts s) (hlen : ts.length = is.length) (hexec : exec i s = .next t) :
    Provenance (is ++ [i]) (ts ++ [t.trace]) t := by
  by_cases hi : agentOf i = .busPeripheral
  · constructor
    · intro ht
      obtain ⟨rfl, rfl⟩ | ⟨d, -, -, -, rfl⟩ := exec_into_receiving hexec hi (.inl ht)
      · exact addressAcceptedLast_concat hlen
      · cases ht
    · intro ht
      obtain ⟨-, rfl⟩ | ⟨d, rfl, hd, hs, rfl⟩ := exec_into_receiving hexec hi (.inr ht)
      · cases ht
      · exact ⟨hd, (h.wrc hs).concat_command hlen d⟩
  · obtain ⟨hstate, hlatch⟩ := exec_keeps_engine hexec hi
    constructor
    · intro ht
      exact (h.wrc (hstate ▸ ht)).concat hi _
    · intro ht
      obtain ⟨hd, hlast⟩ := h.rc (hstate ▸ ht)
      exact hlatch ▸ ⟨hd, hlast.concat hi _⟩

/-- A run from an idle engine has its provenance, by induction from its end. -/
theorem provenance_of_run (hs : s.state = .idle) (h : runOps is s = some (ts, t)) : Provenance is ts t := by
  induction is using List.reverseRecOn generalizing ts t with
  | nil =>
    obtain ⟨rfl, rfl⟩ : [] = ts ∧ s = t := by simpa [runOps] using h
    constructor <;> simp [hs]
  | append_singleton is i ih =>
    obtain ⟨u, us, hrun, hexec, rfl⟩ := runOps_concat.1 h
    exact (ih hrun).concat (runOps_length hrun) hexec

/-- Settles O46: the provenance of a run, written out. -/
theorem commandCameFromItsTransaction : Obligations.CommandCameFromItsTransaction := by
  unfold Obligations.CommandCameFromItsTransaction
  intro is s t ts hs hrun
  obtain ⟨hwrc, hrc⟩ := provenance_of_run hs hrun
  exact ⟨hwrc, hrc⟩

end Sys2Proof.Machine
end

section
/-! PROOFS. The read result over a run without DISP_EXEC (R63): BUS_ADDR_TX loads and clears it, nothing else touches it. -/

namespace Sys2Proof.Machine

variable {i : Instr} {s t : State}

/-- BUS_ADDR_TX loads the read result and clears it (R125). -/
theorem execBusAddrTx_readResult (h : execBusAddrTx s = .next t) :
    t.trace.busTx = some s.readResult ∧ t.readResult = 0x00 := by
  obtain rfl := Host.Outcome.next.inj h
  exact ⟨rfl, rfl⟩

/-- Every operation but BUS_ADDR_TX and DISP_EXEC keeps the read result (R42). -/
theorem exec_keeps_readResult (h : exec i s = .next t) (htx : i ≠ .busAddrTx) (hexec : ∀ r, i ≠ .dispExec r) :
    t.readResult = s.readResult := by
  cases i with
  | busAddrTx => exact absurd rfl htx
  | dispExec r => exact absurd rfl (hexec r)
  | _ => exact readResult_eq_of_value (exec_keeps_unmarked h rfl)

/-- Over a run without DISP_EXEC the read result is cleared if a BUS_ADDR_TX runs, and kept if none does (R63). -/
theorem runOps_readResult {is : List Instr} {ts : List TraceRecord} (hexec : ∀ r, Instr.dispExec r ∉ is)
    (h : runOps is s = some (ts, t)) : t.readResult = if .busAddrTx ∈ is then 0x00 else s.readResult := by
  induction is generalizing s ts with
  | nil =>
    obtain ⟨-, rfl⟩ : [] = ts ∧ s = t := by simpa [runOps] using h
    rfl
  | cons i is ih =>
    simp only [List.mem_cons, not_or] at hexec
    obtain ⟨u, us, hfirst, hrest, rfl⟩ := (runOps_cons ..).1 h
    have ht := ih (fun r => (hexec r).2) hrest
    by_cases hi : i = .busAddrTx
    · subst hi
      simpa [(execBusAddrTx_readResult hfirst).2] using ht
    · have hkept := exec_keeps_readResult hfirst hi fun r => (hexec r).1 ∘ Eq.symm
      simpa [Ne.symm hi, hkept] using ht

/-- Settles O49: the BUS_ADDR_TX after the run loads what the run has left. -/
theorem readResultConsumedOnce : Obligations.ReadResultConsumedOnce := by
  unfold Obligations.ReadResultConsumedOnce
  intro is s t ts hexec hrun
  have ht := runOps_readResult hexec hrun
  constructor
  · intro hno u hu
    rw [(execBusAddrTx_readResult hu).1, ht, if_neg hno]
  · intro hyes u hu
    rw [(execBusAddrTx_readResult hu).1, ht, if_pos hyes]

end Sys2Proof.Machine
end

section
/-! PROOFS. The device address (R66): the class above the three low bits of the index. -/

namespace Sys2Proof.Machine

/-- The formula in seven bits (R66). -/
theorem deviceAddress_eq (c : DevClass) (idx : Byte) :
    deviceAddress c idx = (c.setWidth 7 <<< 3) ||| (idx &&& 0x7).setWidth 7 := by
  have hc : c.toNat % 128 = c.toNat := Nat.mod_eq_of_lt (by omega)
  apply BitVec.eq_of_toNat_eq
  simp [deviceAddress, hc]

/-- The address is the class, then the low three bits of the index (R66). -/
theorem deviceAddress_eq_append (c : DevClass) (idx : Byte) : deviceAddress c idx = c ++ idx.extractLsb' 0 3 := by
  have hlow : idx.toNat &&& 0x7 = (idx.extractLsb' 0 3).toNat := by
    rw [Nat.and_two_pow_sub_one_eq_mod idx.toNat 3]
    simp
  rw [deviceAddress, hlow, ← BitVec.toNat_append, BitVec.ofNat_toNat]
  exact BitVec.setWidth_eq _

/-- Adding a multiple of 8 keeps the low three bits. -/
theorem extractLsb'_add_mul_eight (idx : Byte) (k : Nat) :
    (idx + BitVec.ofNat 8 (8 * k)).extractLsb' 0 3 = idx.extractLsb' 0 3 := by
  apply BitVec.eq_of_toNat_eq
  simp only [BitVec.extractLsb'_toNat, BitVec.toNat_add, BitVec.toNat_ofNat, Nat.shiftRight_zero]
  omega

/-- Settles O26: the fields and the aliases are those of the class appended to three bits of the index. -/
theorem deviceAddressFields : Obligations.DeviceAddressFields := by
  unfold Obligations.DeviceAddressFields
  refine ⟨State.addrMatch_eq, fun c idx => ⟨deviceAddress_eq c idx, ?deviceClass, ?index, fun k => ?aliases⟩⟩
  case deviceClass => rw [deviceAddress_eq_append]; exact BitVec.extractLsb'_append_eq_left
  case index => rw [deviceAddress_eq_append]; exact BitVec.extractLsb'_append_eq_right
  case aliases => rw [deviceAddress_eq_append, deviceAddress_eq_append, extractLsb'_add_mul_eight]

end Sys2Proof.Machine
end

section
/-! PROOFS. The decoder by the two fields of a word (R80, R84, R85): the legal words are the operations' words, and every
statement about a word goes through its fields. -/

namespace Sys2Proof.Machine

open Laws

variable {r : RawOp} {w : Word} {i : Instr} {op : BitVec 4} {d : Byte}

-- the fields of a word

/-- A word is made of its fields (R80). -/
@[simp] theorem toWord_ofWord (w : Word) : (RawOp.ofWord w).toWord = w :=
  (BitVec.extractLsb'_append_extractLsb'_eq_extractLsb' rfl).trans BitVec.extractLsb'_eq_self

/-- Two words with the same fields are one (R80). -/
theorem ofWord_injective : Function.Injective RawOp.ofWord := Function.LeftInverse.injective toWord_ofWord

theorem ofWord_eq_iff : RawOp.ofWord w = ⟨op, d⟩ ↔ w.extractLsb' 8 4 = op ∧ w.extractLsb' 0 8 = d := by
  simp [RawOp.ofWord]

/-- A byte with bit 7 clear is seven bits wide (R83). -/
theorem setWidth_extractLsb'_of_bitSeven (h : d.getLsbD 7 = false) : (d.extractLsb' 0 7).setWidth 8 = d := by
  ext k hk
  obtain rfl | hk7 : k = 7 ∨ k < 7 := by omega
  · simpa [BitVec.getLsbD_eq_getElem] using h.symm
  · simp [hk7, BitVec.getLsbD_eq_getElem hk]

/-- Bit 7 of a byte (R84). -/
theorem getLsbD_seven (d : Byte) : d.getLsbD 7 = decide (0x80 ≤ d.toNat) := d.msb_eq_decide

-- which fields are an operation's

/-- The operation codes that take no operand (R84). -/
def noOperandCodes : List (BitVec 4) := [0x0, 0x2, 0x3, 0x4, 0x7, 0x9, 0xA, 0xB, 0xC, 0xD, 0xE, 0xF]

/-- The operation codes that take a byte: BUS_DATA_RX, BUS_OTHER, DISP_EXEC (R83). -/
def byteOperandCodes : List (BitVec 4) := [0x1, 0x5, 0x8]

/-- An operation code takes no operand, or a byte, or is REINIT's (R83). -/
theorem op_cases (op : BitVec 4) : op ∈ noOperandCodes ∨ op ∈ byteOperandCodes ∨ op = 0x6 := by
  revert op; decide

theorem mem_noOperandCodes_iff : op ∈ noOperandCodes ↔ op ≠ 0x6 ∧ op ≠ 0x1 ∧ op ≠ 0x5 ∧ op ≠ 0x8 := by
  revert op; decide

/-- Where no operand is taken, check 1 is on the whole data byte (R84). -/
theorem operandCheck_of_noOperand (h : op ∈ noOperandCodes) : (RawOp.mk op d).operandCheck = (d == 0x00) := by
  have hcode : ∀ op ∈ noOperandCodes, (op == 0x1 || op == 0x5 || op == 0x8 || op == 0x6) = false := by decide
  rw [RawOp.operandCheck, RawOp.takesByte, hcode op h, Bool.false_or]

/-- Where a byte is taken, check 1 passes (R84). -/
theorem operandCheck_of_byteOperand (h : op ∈ byteOperandCodes) : (RawOp.mk op d).operandCheck = true := by
  have hcode : ∀ op ∈ byteOperandCodes, (op == 0x1 || op == 0x5 || op == 0x8) = true := by decide
  rw [RawOp.operandCheck, RawOp.takesByte, hcode op h, Bool.true_or, Bool.true_or]

/-- Check 2 is on REINIT's words only (R84). -/
theorem addressCheck_of_not_reinit (h : op ≠ 0x6) : (RawOp.mk op d).addressCheck = true := by
  simpa [RawOp.addressCheck] using Or.inl h

theorem wellFormed_of_noOperand (h : op ∈ noOperandCodes) : (RawOp.mk op d).wellFormed = true ↔ d = 0x00 := by
  simp [RawOp.wellFormed, operandCheck_of_noOperand h, addressCheck_of_not_reinit (mem_noOperandCodes_iff.1 h).1]

theorem wellFormed_of_byteOperand (h : op ∈ byteOperandCodes) : (RawOp.mk op d).wellFormed = true := by
  have hop : op ≠ 0x6 := by rintro rfl; revert h; decide
  simp [RawOp.wellFormed, operandCheck_of_byteOperand h, addressCheck_of_not_reinit hop]

theorem wellFormed_of_reinit : (RawOp.mk 0x6 d).wellFormed = true ↔ d.getLsbD 7 = false := by
  simp [RawOp.wellFormed, RawOp.operandCheck, RawOp.addressCheck]

/-- Every pair of well-formed fields is an operation's (R82, R84). -/
theorem exists_raw_eq (h : r.wellFormed = true) : ∃ i : Instr, i.raw = r := by
  obtain ⟨op, d⟩ := r
  rcases op_cases op with hop | hop | rfl
  · obtain rfl := (wellFormed_of_noOperand hop).1 h
    have hcodes : ∀ op ∈ noOperandCodes, (RawOp.mk op 0x00).instr.raw = ⟨op, 0x00⟩ := by decide
    exact ⟨_, hcodes op hop⟩
  · simp only [byteOperandCodes, List.mem_cons, List.not_mem_nil, or_false] at hop
    rcases hop with rfl | rfl | rfl
    · exact ⟨.busDataRx d, rfl⟩
    · exact ⟨.busOther d, rfl⟩
    · exact ⟨.dispExec d, rfl⟩
  · exact ⟨.reinit (d.extractLsb' 0 7), by
      simp [Instr.raw, setWidth_extractLsb'_of_bitSeven (wellFormed_of_reinit.1 h)]⟩

-- what a word decodes to

/-- A word decodes to an operation only if its fields are well formed (R85). -/
theorem wellFormed_of_decode (h : decode w = .op i) : (RawOp.ofWord w).wellFormed = true := by
  simp only [decode] at h
  split at h
  · cases h
  · split at h
    · cases h
    · simp_all [RawOp.wellFormed]

/-- A word decodes to the operation whose fields it has (R80, R85). -/
theorem decode_eq_op_iff : decode w = .op i ↔ RawOp.ofWord w = i.raw := by
  constructor
  · intro h
    obtain ⟨j, hj⟩ := exists_raw_eq (wellFormed_of_decode h)
    have hw : encode j = w := by rw [encode, hj, toWord_ofWord]
    rw [← hw, decode_encode_self, Decoded.op.injEq] at h
    rw [← hj, h]
  · intro h
    have hw : encode i = w := by rw [encode, ← h, toWord_ofWord]
    rw [← hw, decode_encode_self]

theorem decode_of_fields (hop : w.extractLsb' 8 4 = i.raw.op) (hd : w.extractLsb' 0 8 = i.raw.d) : decode w = .op i :=
  decode_eq_op_iff.2 (ofWord_eq_iff.2 ⟨hop, hd⟩)

/-- A word is reserved just when its fields are not well formed (R84). -/
theorem decode_toOption_eq_none_iff : (decode w).toOption = none ↔ (RawOp.ofWord w).wellFormed = false := by
  cases hw : decode w with
  | op i => simp [Decoded.toOption, wellFormed_of_decode hw]
  | reserved e =>
    have hnot : (RawOp.ofWord w).wellFormed ≠ true := by
      intro h
      obtain ⟨i, hi⟩ := exists_raw_eq h
      rw [decode_eq_op_iff.2 hi.symm] at hw
      cases hw
    simpa [Decoded.toOption] using hnot

theorem wellFormed_of_decode_reserved {e : Reserved} (h : decode w = .reserved e) :
    (RawOp.ofWord w).wellFormed = false :=
  decode_toOption_eq_none_iff.1 (by rw [h]; rfl)

/-- Settles O3: a word that decodes to `i` has the fields of `i`, and is made of them. -/
theorem decodeEncodeAgree : Obligations.DecodeEncodeAgree := by
  unfold Obligations.DecodeEncodeAgree
  refine ⟨decode_encode_self, fun w i h => ?_⟩
  rw [encode, ← decode_eq_op_iff.1 h, toWord_ofWord]

/-- A REINIT word with bit 7 set is reserved as such (R84, R85). -/
theorem decode_of_addressBitSeven (hop : w.extractLsb' 8 4 = 0x6) (hd : (w.extractLsb' 0 8).getLsbD 7 = true) :
    decode w = .reserved (.addressBitSeven (w.extractLsb' 0 8)) := by
  simp only [decode, RawOp.ofWord, RawOp.addressCheck, hop, hd]
  rfl

/-- A word whose operation takes no operand is reserved with any data byte but 0x00 (R84, R85). -/
theorem decode_of_operandNotZero (hop : w.extractLsb' 8 4 ∈ noOperandCodes) (hd : w.extractLsb' 0 8 ≠ 0x00) :
    decode w = .reserved (.operandNotZero (w.extractLsb' 8 4) (w.extractLsb' 0 8)) := by
  have haddress : (RawOp.ofWord w).addressCheck = true := addressCheck_of_not_reinit (mem_noOperandCodes_iff.1 hop).1
  have hoperand : (RawOp.ofWord w).operandCheck = false :=
    (operandCheck_of_noOperand hop).trans (beq_eq_false_iff_ne.2 hd)
  simp only [decode, haddress, hoperand]
  rfl

/-- Settles O2: a word with an operation's fields decodes to it; the words the two checks of R84 refuse are reserved. -/
theorem decodeFollowsFields : Obligations.DecodeFollowsFields := by
  unfold Obligations.DecodeFollowsFields
  rintro w op d rfl rfl
  refine ⟨fun h => ?addressBitSeven, fun h => ?reinit, fun hop => ?busDataRx, fun hop => ?busOther,
    fun hop => ?dispExec, fun h => ?operandNotZero, fun hd => ?noOperand⟩
  case addressBitSeven => exact decode_of_addressBitSeven h.1 h.2
  case reinit => exact decode_of_fields h.1 (setWidth_extractLsb'_of_bitSeven h.2).symm
  case busDataRx => exact decode_of_fields hop rfl
  case busOther => exact decode_of_fields hop rfl
  case dispExec => exact decode_of_fields hop rfl
  case operandNotZero =>
    obtain ⟨h6, h1, h5, h8, hd⟩ := h
    exact decode_of_operandNotZero (mem_noOperandCodes_iff.2 ⟨h6, h1, h5, h8⟩) hd
  case noOperand =>
    refine ⟨?_, ?_, ?_, ?_, ?_, ?_, ?_, ?_, ?_, ?_, ?_, ?_⟩
    all_goals exact fun hop => decode_of_fields hop hd

/-- Settles O5: each sample word has the fields of its operation. -/
theorem sampleWordsDecode : Obligations.SampleWordsDecode := by
  unfold Obligations.SampleWordsDecode
  refine ⟨?_, ?_, ?_, ?_, ?_, ?_, ?_, ?_, ?_, ?_, ?_, ?_, ?_, ?_, ?_, ?_⟩
  all_goals exact decode_eq_op_iff.2 rfl

theorem toOption_eq_some_iff {x : Decoded} : x.toOption = some i ↔ x = .op i := by
  cases x <;> simp [Decoded.toOption]

/-- The operation a host's number stands for is that of the word it stands for. -/
theorem decode_fetchWordOf {nbits n : Nat} (h : decodeTableWord nbits n = some i) :
    decode (fetchWordOf nbits n) = .op i := by
  simp only [decodeTableWord] at h
  split at h
  · exact toOption_eq_some_iff.1 h
  · cases h

/-- Settles O9: the number's word is placed in front of the words issued before. -/
theorem placedWordRunsNext : Obligations.PlacedWordRunsNext := by
  unfold Obligations.PlacedWordRunsNext
  intro s nbits n i h
  exact step_of_issued_op rfl (decode_fetchWordOf h)

end Sys2Proof.Machine
end

section
/-! PROOFS. The operation map as masks and patterns (R82, R84): a row accepts the well-formed words of its code. -/

namespace Sys2Proof.Machine

open Laws

variable {w : Word} {i : Instr} {op : BitVec 4} {d : Byte}

/-- The row of an operation code: the table lists the rows in the order of the codes (R82). -/
def rowOf (op : BitVec 4) : OpRow := opTable[op.toNat]'op.isLt

/-- The bits of the data byte that an operation's code fixes at zero (R83). -/
def fixedBits (op : BitVec 4) : Byte :=
  if op ∈ noOperandCodes then 0xFF else if op = 0x6 then 0x80 else 0x00

theorem exists_rowOf_eq {row : OpRow} (h : row ∈ opTable) : ∃ op, row = rowOf op := by
  obtain ⟨k, hk, rfl⟩ := List.getElem_of_mem h
  exact ⟨BitVec.ofNatLT k hk, rfl⟩

/-- The mnemonics of two codes differ (R82). -/
theorem rowOf_mnemonic_inj : ∀ op op' : BitVec 4, (rowOf op).mnemonic = (rowOf op').mnemonic ↔ op = op' := by
  decide

/-- An operation's mnemonic is that of its code (R82). -/
theorem mnemonic_eq (i : Instr) : i.mnemonic = (rowOf i.raw.op).mnemonic := by
  cases i <;> rfl

theorem rowOf_value : ∀ op : BitVec 4, (rowOf op).value = op ++ (0x00 : Byte) := by decide

theorem rowOf_mask : ∀ op : BitVec 4, (rowOf op).mask = (0xF : BitVec 4) ++ fixedBits op := by decide

/-- A word with its code is an operation's when it is zero in the fixed bits (R84). -/
theorem and_fixedBits_eq_zero_iff : d &&& fixedBits op = 0x00 ↔ (RawOp.mk op d).wellFormed = true := by
  rcases op_cases op with hop | hop | rfl
  · have hbits : fixedBits op = BitVec.allOnes 8 := if_pos hop
    rw [wellFormed_of_noOperand hop, hbits, BitVec.and_allOnes]
  · have hbits : ∀ op ∈ byteOperandCodes, fixedBits op = 0x00 := by decide
    rw [hbits op hop]
    exact iff_of_true BitVec.and_zero (wellFormed_of_byteOperand hop)
  · have hbits : fixedBits 0x6 = BitVec.twoPow 8 7 := by decide
    rw [wellFormed_of_reinit, hbits, BitVec.and_twoPow]
    cases d.getLsbD 7 <;> decide

theorem ofWord_and (w : Word) (r : RawOp) :
    RawOp.ofWord (w &&& r.toWord) = ⟨w.extractLsb' 8 4 &&& r.op, w.extractLsb' 0 8 &&& r.d⟩ := by
  obtain ⟨hop, hd⟩ := ofWord_eq_iff.1 (RawOp_ofWord_toWord r)
  rw [ofWord_eq_iff, BitVec.extractLsb'_and, BitVec.extractLsb'_and, hop, hd]
  exact ⟨rfl, rfl⟩

/-- A row accepts the words of its code that are operations (R82, R84). -/
theorem rowOf_accepts_iff :
    (rowOf op).accepts w = true ↔ w.extractLsb' 8 4 = op ∧ (RawOp.ofWord w).wellFormed = true := by
  have hmask : (rowOf op).mask = RawOp.toWord ⟨0xF, fixedBits op⟩ := rowOf_mask op
  have hvalue : RawOp.ofWord (rowOf op).value = ⟨op, 0x00⟩ := by
    rw [rowOf_value]
    exact RawOp_ofWord_toWord ⟨op, 0x00⟩
  have hcode : w.extractLsb' 8 4 &&& 0xF = w.extractLsb' 8 4 := BitVec.and_allOnes
  rw [OpRow.accepts, beq_iff_eq, ← ofWord_injective.eq_iff, hmask, hvalue, ofWord_and, RawOp.mk.injEq, hcode]
  refine and_congr_right ?_
  rintro rfl
  exact and_fixedBits_eq_zero_iff

/-- Settles O4: a row accepts a word when the code is the row's and the word no reserved one; its mnemonic tells the code. -/
theorem decodeFollowsOpTable : Obligations.DecodeFollowsOpTable := by
  unfold Obligations.DecodeFollowsOpTable
  intro w
  constructor
  · intro i hi row hrow
    obtain ⟨op, rfl⟩ := exists_rowOf_eq hrow
    obtain ⟨hop, -⟩ := ofWord_eq_iff.1 (decode_eq_op_iff.1 hi)
    rw [rowOf_accepts_iff, mnemonic_eq, rowOf_mnemonic_inj, hop, and_iff_left (wellFormed_of_decode hi)]
    exact eq_comm
  · intro e he row hrow
    obtain ⟨op, rfl⟩ := exists_rowOf_eq hrow
    rw [← Bool.not_eq_true, rowOf_accepts_iff, wellFormed_of_decode_reserved he]
    simp

end Sys2Proof.Machine
end

section
/-! PROOFS. Which words are reserved and how many (R84), counted code by code. -/

namespace Sys2Proof.Machine

open Laws

variable {w : Word} {op : BitVec 4} {d : Byte}

/-- The fields of a reserved word (R84). -/
theorem not_wellFormed_iff : (RawOp.mk op d).wellFormed = false ↔
    (op ∈ noOperandCodes ∧ d ≠ 0x00) ∨ (op = 0x6 ∧ d.getLsbD 7 = true) := by
  rw [← Bool.not_eq_true]
  rcases op_cases op with hop | hop | rfl
  · rw [wellFormed_of_noOperand hop]
    have h6 := (mem_noOperandCodes_iff.1 hop).1
    tauto
  · have hcode : ∀ op ∈ byteOperandCodes, ¬(op ∈ noOperandCodes ∨ op = 0x6) := by decide
    have hnot := hcode op hop
    rw [wellFormed_of_byteOperand hop]
    tauto
  · have h6 : (0x6 : BitVec 4) ∉ noOperandCodes := by decide
    rw [wellFormed_of_reinit, Bool.not_eq_false]
    tauto

/-- The value of a word by its fields (R80). -/
theorem toNat_eq_fields (w : Word) : w.toNat = (w.extractLsb' 8 4).toNat * 256 + (w.extractLsb' 0 8).toNat := by
  simp only [BitVec.extractLsb'_toNat, Nat.shiftRight_eq_div_pow]
  omega

/-- The reserved REINIT words are a range (R84). -/
theorem bitSeven_iff_of_reinit (hop : w.extractLsb' 8 4 = 0x6) :
    (w.extractLsb' 0 8).getLsbD 7 = true ↔ 0x680 ≤ w ∧ w ≤ 0x6FF := by
  have hw := toNat_eq_fields w
  have hd := (w.extractLsb' 0 8).isLt
  rw [hop] at hw
  simp only [getLsbD_seven, decide_eq_true_iff, BitVec.le_def]
  simp only [BitVec.reduceToNat] at hw ⊢
  omega

-- counting

/-- Counting along `finRange` is the size of a set. -/
theorem countP_finRange (n : Nat) (p : Fin n → Bool) :
    (List.finRange n).countP p = Finset.card {k | p k = true} := by
  rw [List.countP_eq_length_filter, Finset.card_def, Finset.filter_val, Finset.val_univ_fin, Multiset.filter_coe,
    Multiset.coe_card]
  simp only [Bool.decide_eq_true]

/-- What has no value is the rest of what has one. The two counts are variables, so that no proof's check evaluates a
count along `finRange`. -/
theorem countP_isNone_of_isSome {α β : Type} {f : α → Option β} {l : List α} {n k : Nat} (hn : l.length = n)
    (hk : (l.countP fun x => (f x).isSome) = k) : (l.countP fun x => (f x).isNone) = n - k := by
  rw [← hn, ← hk, List.length_eq_countP_add_countP fun x => (f x).isNone]
  simp only [Bool.not_eq_true, Option.isNone_eq_false_iff, Bool.decide_eq_true, Nat.add_sub_cancel]

/-- A word with the fields of an operation decodes to one (R80, R85). -/
theorem decode_append_isSome (op : BitVec 4) (d : Byte) :
    (decode (op ++ d)).toOption.isSome = (RawOp.mk op d).wellFormed := by
  have hfields : RawOp.ofWord (op ++ d) = ⟨op, d⟩ := RawOp_ofWord_toWord ⟨op, d⟩
  rw [← Bool.not_inj_iff, Option.not_isSome, Bool.eq_iff_iff, Option.isNone_iff_eq_none, decode_toOption_eq_none_iff,
    hfields, Bool.not_eq_true']

/-- The number of operations with a code (R83). -/
def operationCount (op : BitVec 4) : Nat :=
  if op ∈ noOperandCodes then 1 else if op = 0x6 then 128 else 256

theorem countP_operations (op : BitVec 4) :
    ((List.finRange 256).countP fun d => (decode (op ++ BitVec.ofFin (w := 8) d)).toOption.isSome) =
      operationCount op := by
  simp only [decode_append_isSome]
  rw [countP_finRange]
  rcases op_cases op with hop | hop | rfl
  · have hcount : operationCount op = 1 := if_pos hop
    have hzero : ∀ d : Fin 256, BitVec.ofFin (w := 8) d = 0x00 ↔ d = 0 := fun d => by rw [← BitVec.toFin_inj]; rfl
    simp only [wellFormed_of_noOperand hop, hzero]
    rw [hcount, Finset.filter_eq', if_pos (Finset.mem_univ _), Finset.card_singleton]
  · have hcount : ∀ op ∈ byteOperandCodes, operationCount op = 256 := by decide
    simp only [wellFormed_of_byteOperand hop]
    rw [hcount op hop, Finset.filter_true, Finset.card_univ, Fintype.card_fin]
  · have hcount : operationCount 0x6 = 128 := by decide
    simp only [wellFormed_of_reinit, getLsbD_seven, decide_eq_false_iff_not, not_le]
    exact Fin.card_filter_val_lt.trans hcount.symm

/-- The word with the code `k.1` and the data byte `k.2` has their number in base 256 (R80). -/
theorem ofFin_finProdFinEquiv (k : Fin 16 × Fin 256) :
    BitVec.ofFin (w := 12) (finProdFinEquiv k : Fin (16 * 256)) =
      BitVec.ofFin (w := 4) k.1 ++ BitVec.ofFin (w := 8) k.2 := by
  apply BitVec.eq_of_toNat_eq
  rw [BitVec.toNat_append, ← Nat.shiftLeft_add_eq_or_of_lt (BitVec.isLt _), Nat.shiftLeft_eq]
  simp only [BitVec.toNat_ofFin, finProdFinEquiv_apply_val]
  omega

/-- The words are counted code by code (R80). -/
theorem countP_words (p : Word → Bool) :
    ((List.finRange 4096).countP fun w => p (BitVec.ofFin w)) =
      ∑ op : Fin 16, (List.finRange 256).countP fun d => p (BitVec.ofFin (w := 4) op ++ BitVec.ofFin (w := 8) d) := by
  simp only [countP_finRange, Finset.card_filter]
  rw [← Fintype.sum_prod_type (f := fun k : Fin 16 × Fin 256 =>
    if p (BitVec.ofFin (w := 4) k.1 ++ BitVec.ofFin (w := 8) k.2) = true then 1 else 0)]
  simp only [← ofFin_finProdFinEquiv]
  exact (Equiv.sum_comp (finProdFinEquiv : Fin 16 × Fin 256 ≃ Fin (16 * 256)) _).symm

theorem sum_operationCount : ∑ op : Fin 16, operationCount (BitVec.ofFin (w := 4) op) = 908 := by decide

/-- The operations of the sixteen codes (R82 to R84). -/
theorem countP_legal : ((List.finRange 4096).countP fun w => (decode (BitVec.ofFin w)).toOption.isSome) = 908 := by
  rw [countP_words fun w => (decode w).toOption.isSome]
  exact (Finset.sum_congr rfl fun op _ => countP_operations (BitVec.ofFin op)).trans sum_operationCount

/-- The words that are left are reserved (R84). -/
theorem countP_reserved : ((List.finRange 4096).countP fun w => (decode (BitVec.ofFin w)).toOption.isNone) = 3188 :=
  countP_isNone_of_isSome List.length_finRange countP_legal

theorem countP_reserved_of_noOperand (hop : op ∈ noOperandCodes) :
    ((List.finRange 256).countP fun d => (decode (op ++ BitVec.ofFin (w := 8) d)).toOption.isNone) = 255 :=
  countP_isNone_of_isSome List.length_finRange ((countP_operations op).trans (if_pos hop))

/-- The reserved words of REINIT (R84). -/
theorem decode_reinit_eq_none_iff (hop : w.extractLsb' 8 4 = 0x6) :
    (decode w).toOption = none ↔ 0x680 ≤ w ∧ w ≤ 0x6FF := by
  have hfields : RawOp.ofWord w = ⟨0x6, w.extractLsb' 0 8⟩ := ofWord_eq_iff.2 ⟨hop, rfl⟩
  rw [decode_toOption_eq_none_iff, hfields, ← Bool.not_eq_true, wellFormed_of_reinit, Bool.not_eq_false]
  exact bitSeven_iff_of_reinit hop

/-- Settles O6: the words without well-formed fields, counted as those that are left when the operations are. -/
theorem reservedWords : Obligations.ReservedWords := by
  unfold Obligations.ReservedWords
  rintro _ rfl
  exact ⟨fun w => decode_toOption_eq_none_iff.trans not_wellFormed_iff, fun op => countP_reserved_of_noOperand,
    fun w => decode_reinit_eq_none_iff, countP_reserved, countP_legal⟩

end Sys2Proof.Machine
end

section
/-! PROOFS. Which operations are refused (R86), and that every other completes. -/

namespace Sys2Proof.Machine

variable {i : Instr} {s : State} {r : Refusal}

/-- Why an operation is refused, if it is (R86 (b) to (d)). -/
def refusalOf (i : Instr) (s : State) : Option Refusal :=
  match i with
  | .dispTake => if s.inflight = none then none else some .twoInFlight
  | .dispExec _ => if s.inflight = none then some .nothingInFlight else none
  | .reinit _ => if s.state = .idle then none else some .reinitMidTransaction
  | _ => none

/-- DISP_EXEC with no command in flight (R153, R86 (c)). -/
theorem execDispExec_of_none {a : Byte} (hi : s.inflight = none) : execDispExec a s = .refused .nothingInFlight := by
  simp only [execDispExec, hi, refuse]

/-- REINIT outside IDLE (R140, R86 (d)). -/
theorem execReinit_of_busy {a : BusAddr} (hs : s.state ≠ .idle) : execReinit a s = .refused .reinitMidTransaction :=
  if_neg hs

/-- R86's three cases, and no other. -/
theorem refusalOf_cases (h : refusalOf i s = some r) :
    (i = .dispTake ∧ s.inflight ≠ none ∧ r = .twoInFlight) ∨
    ((∃ a, i = .dispExec a) ∧ s.inflight = none ∧ r = .nothingInFlight) ∨
    ((∃ a, i = .reinit a) ∧ s.state ≠ .idle ∧ r = .reinitMidTransaction) := by
  cases i with
  | dispTake | dispExec a | reinit a => simpa [refusalOf, eq_comm] using h
  | _ => cases h

theorem exec_of_refusalOf_some (h : refusalOf i s = some r) : exec i s = .refused r := by
  obtain ⟨rfl, hi, rfl⟩ | ⟨⟨a, rfl⟩, hi, rfl⟩ | ⟨⟨a, rfl⟩, hs, rfl⟩ := refusalOf_cases h
  · obtain ⟨c, hc⟩ := Option.ne_none_iff_exists'.1 hi
    exact execDispTake_of_inflight hc
  · exact execDispExec_of_none hi
  · exact execReinit_of_busy hs

-- the operations that complete

theorem execBusAddrRx_completes (s : State) : ∃ t, execBusAddrRx s = .next t := by
  unfold execBusAddrRx
  cases s.state <;> cases s.qFull <;> exact ⟨_, rfl⟩

theorem execBusDataRx_completes (d : Byte) (s : State) : ∃ t, execBusDataRx d s = .next t := by
  unfold execBusDataRx State.receiveCommand State.receiveArgument
  cases s.state with
  | wrc => dsimp only; split <;> exact ⟨_, rfl⟩
  | rc => cases s.qFull <;> exact ⟨_, rfl⟩
  | _ => exact ⟨_, rfl⟩

theorem execBusDataTx_completes (s : State) : ∃ t, execBusDataTx s = .next t := by
  unfold execBusDataTx
  cases s.state <;> exact ⟨_, rfl⟩

theorem execReinit_completes {a : BusAddr} (hs : s.state = .idle) : ∃ t, execReinit a s = .next t := ⟨_, if_pos hs⟩

theorem execDispTake_completes (hi : s.inflight = none) : ∃ t, execDispTake s = .next t := by
  cases he : s.qEmpty with
  | true => exact ⟨_, execDispTake_of_empty hi he⟩
  | false => exact ⟨_, execDispTake_of_waiting hi he⟩

theorem execDispExec_completes {a : Byte} (hi : s.inflight ≠ none) : ∃ t, execDispExec a s = .next t := by
  obtain ⟨c, hc⟩ := Option.ne_none_iff_exists'.1 hi
  simp only [execDispExec, hc]
  split <;> exact ⟨_, rfl⟩

theorem execAddrTick_completes (s : State) : ∃ t, execAddrTick s = .next t := by
  unfold execAddrTick
  split
  · exact ⟨_, rfl⟩
  · split <;> exact ⟨_, rfl⟩

theorem execAddrCommit_completes (s : State) : ∃ t, execAddrCommit s = .next t := by
  unfold execAddrCommit
  cases s.assignPending with
  | none => exact ⟨_, rfl⟩
  | some n => by_cases hs : s.state = .idle <;> simp [hs, State.noEffect]

theorem execAddrEmit_completes (s : State) : ∃ t, execAddrEmit s = .next t := by
  unfold execAddrEmit
  split <;> exact ⟨_, rfl⟩

theorem execEvtTick_completes (s : State) : ∃ t, execEvtTick s = .next t := by
  unfold execEvtTick
  split
  · exact ⟨_, rfl⟩
  · split <;> exact ⟨_, rfl⟩

theorem exec_of_refusalOf_none (h : refusalOf i s = none) : ∃ t, exec i s = .next t := by
  cases i with
  | busAddrRx => exact execBusAddrRx_completes s
  | busDataRx d => exact execBusDataRx_completes d s
  | busStop | busAddrTx | busOther _ | addrFall | evtAssert | evtRelease => exact ⟨_, rfl⟩
  | busDataTx => exact execBusDataTx_completes s
  | reinit a => exact execReinit_completes (by simpa [refusalOf] using h)
  | dispTake => exact execDispTake_completes (by simpa [refusalOf] using h)
  | dispExec a => exact execDispExec_completes (by simpa [refusalOf] using h)
  | addrTick => exact execAddrTick_completes s
  | addrCommit => exact execAddrCommit_completes s
  | addrEmit => exact execAddrEmit_completes s
  | evtTick => exact execEvtTick_completes s

/-- An operation is refused for the reason R86 gives, if it gives one. -/
theorem exec_eq_refused_iff : exec i s = .refused r ↔ refusalOf i s = some r := by
  refine ⟨fun h => ?_, exec_of_refusalOf_some⟩
  cases hr : refusalOf i s with
  | none =>
    obtain ⟨t, ht⟩ := exec_of_refusalOf_none hr
    cases ht.symm.trans h
  | some r' => cases (exec_of_refusalOf_some hr).symm.trans h; rfl

/-- An operation completes where R86 gives no reason to refuse it. -/
theorem exec_completes_iff : (∃ t, exec i s = .next t) ↔ refusalOf i s = none := by
  refine ⟨?_, exec_of_refusalOf_none⟩
  rintro ⟨t, ht⟩
  refine Option.eq_none_iff_forall_ne_some.2 fun r hr => ?_
  cases ht.symm.trans (exec_of_refusalOf_some hr)

-- the three cases

theorem refusalOf_eq_twoInFlight_iff : refusalOf i s = some .twoInFlight ↔ i = .dispTake ∧ s.inflight ≠ none := by
  cases i <;> simp [refusalOf]

theorem refusalOf_eq_nothingInFlight_iff :
    refusalOf i s = some .nothingInFlight ↔ (∃ a, i = .dispExec a) ∧ s.inflight = none := by
  cases i <;> simp [refusalOf]

theorem refusalOf_eq_reinitMidTransaction_iff :
    refusalOf i s = some .reinitMidTransaction ↔ (∃ a, i = .reinit a) ∧ s.state ≠ .idle := by
  cases i <;> simp [refusalOf]

/-- Settles O33: the refusals are R86's three cases, and the operation completes when it is in none of them. -/
theorem refusedExactlyWhenSaid : Obligations.RefusedExactlyWhenSaid := by
  unfold Obligations.RefusedExactlyWhenSaid
  intro i s
  dsimp only
  rw [← refusalOf_eq_twoInFlight_iff, ← refusalOf_eq_nothingInFlight_iff, ← refusalOf_eq_reinitMidTransaction_iff,
    exec_completes_iff]
  refine ⟨exec_eq_refused_iff.symm, exec_eq_refused_iff.symm, exec_eq_refused_iff.symm, ?_⟩
  rw [Option.eq_none_iff_forall_ne_some]
  constructor
  · rintro ⟨hb, hc, hd⟩ r hr
    obtain ⟨-, -, rfl⟩ | ⟨-, -, rfl⟩ | ⟨-, -, rfl⟩ := refusalOf_cases hr
    · exact hb hr
    · exact hc hr
    · exact hd hr
  · exact fun h => ⟨h _, h _, h _⟩

end Sys2Proof.Machine
end

section
/-! PROOFS. A whole write transaction (R89): the four phases one by one, each acknowledged. -/

namespace Sys2Proof.Machine

variable {s : State} {d : Byte}

/-- What an accepted address leaves (R113). -/
def State.acceptAddress (s : State) : State := (s.goto .wrc).finish (.response .ack .none)

/-- BUS_ADDR_RX in IDLE with room (R113). -/
theorem execBusAddrRx_of_room (hs : s.state = .idle) (hf : s.qFull = false) :
    execBusAddrRx s = .next s.acceptAddress := by
  simp only [execBusAddrRx, hs, hf, Bool.false_eq_true, if_false]
  rfl

/-- What a command byte leaves (R117). -/
def State.acceptCommand (s : State) (d : Byte) : State :=
  (State.goto { s with cmdLatch := d } .rc).finish (.response .ack .none)

/-- A command byte other than 0x00 (R117). -/
theorem execBusDataRx_of_command (hs : s.state = .wrc) (hd : d ≠ 0x00) :
    execBusDataRx d s = .next (s.acceptCommand d) := by
  simp only [execBusDataRx, hs, State.receiveCommand]
  exact if_neg hd

/-- Accepting an argument byte appends the record (R118). -/
theorem queued_acceptArgument (hf : s.qFull = false) (d : Byte) :
    queued (s.acceptArgument d) = queued s ++ [recordOf s.cmdLatch d] :=
  queued_enqueue (s := { s with argLatch := d }) hf (recordOf s.cmdLatch d)

/-- Settles O47: the run, phase by phase; only the argument byte touches the queue. -/
theorem writeTransactionEnqueuesOnce : Obligations.WriteTransactionEnqueuesOnce := by
  unfold Obligations.WriteTransactionEnqueuesOnce
  intro s c a hs hf hc
  have haddress : exec .busAddrRx s = .next s.acceptAddress := execBusAddrRx_of_room hs hf
  have hcommand : exec (.busDataRx c) s.acceptAddress = .next (s.acceptAddress.acceptCommand c) :=
    execBusDataRx_of_command (s := s.acceptAddress) rfl hc
  have hargument : exec (.busDataRx a) (s.acceptAddress.acceptCommand c) =
      .next ((s.acceptAddress.acceptCommand c).acceptArgument a) :=
    execBusDataRx_of_room (s := s.acceptAddress.acceptCommand c) rfl hf
  have hstop (u : State) : exec .busStop u = .next ((u.goto .idle).finish (.response .ack .none)) := rfl
  have hrun := (runOps_append [.busAddrRx, .busDataRx c] [.busDataRx a, .busStop] s _ _).2
    ⟨_, _, _, runOps_pair haddress hcommand, runOps_pair hargument (hstop _), rfl⟩
  exact ⟨_, _, hrun, rfl, queued_acceptArgument (s := s.acceptAddress.acceptCommand c) hf a, rfl⟩

end Sys2Proof.Machine
end

section
/-! PROOFS. The textual form (R88): a written line is cut at its one blank, and its hexadecimal operand read back. -/

namespace Sys2Proof.Machine

variable {i : Instr} {cs ds : List Char} {d : Byte}

-- cutting a line into parts

/-- Characters that neither separate parts nor start a comment (R88). -/
def PartChars (cs : List Char) : Prop := ∀ c ∈ cs, c ≠ ' ' ∧ c ≠ ',' ∧ c ≠ ';'

theorem PartChars.of_cons {c : Char} (h : PartChars (c :: cs)) : (c ≠ ' ' ∧ c ≠ ',' ∧ c ≠ ';') ∧ PartChars cs :=
  List.forall_mem_cons.1 h

theorem cutBlanks_part (h : PartChars cs) : cutBlanks cs = [cs] := by
  induction cs with
  | nil => rfl
  | cons c cs ih =>
    obtain ⟨⟨hblank, hcomma, -⟩, hcs⟩ := h.of_cons
    simp [cutBlanks, ih hcs, hblank, hcomma]

theorem cutBlanks_part_blank (h : PartChars cs) (hd : PartChars ds) : cutBlanks (cs ++ ' ' :: ds) = [cs, ds] := by
  induction cs with
  | nil => simp [cutBlanks, cutBlanks_part hd]
  | cons c cs ih =>
    obtain ⟨⟨hblank, hcomma, -⟩, hcs⟩ := h.of_cons
    simp [cutBlanks, ih hcs, hblank, hcomma]

-- the hexadecimal operand

/-- The character of a hexadecimal digit. -/
def hexChar (n : BitVec 4) : Char := if n.toNat < 10 then Char.ofNat (48 + n.toNat) else Char.ofNat (55 + n.toNat)

theorem hexDigit_toList : ∀ n : BitVec 4, (hexDigit n).toList = [hexChar n] := by decide

@[simp] theorem hexValue_hexChar : ∀ n : BitVec 4, hexValue (hexChar n) = some n := by decide

theorem hexChar_part : ∀ n : BitVec 4, hexChar n ≠ ' ' ∧ hexChar n ≠ ',' ∧ hexChar n ≠ ';' := by decide

theorem hexByte_toList (d : Byte) :
    (hexByte d).toList = ['0', 'x', hexChar (d.extractLsb' 4 4), hexChar (d.extractLsb' 0 4)] := by
  have hzerox : "0x".toList = ['0', 'x'] := by decide
  simp [hexByte, hexDigit_toList, hzerox]

theorem hexByte_part (d : Byte) : PartChars (hexByte d).toList := by
  simp [PartChars, hexByte_toList, hexChar_part]

/-- A written byte reads back (R8, R88). -/
theorem readByte_hexByte (d : Byte) : readByte (hexByte d).toList = some d := by
  have hparts : d.extractLsb' 4 4 ++ d.extractLsb' 0 4 = d :=
    (BitVec.extractLsb'_append_extractLsb'_eq_extractLsb' rfl).trans BitVec.extractLsb'_eq_self
  rw [hexByte_toList]
  simp [readByte, hparts]

-- reading a line

theorem PartChars.no_comment (h : PartChars cs) : ∀ c ∈ cs, c ≠ ';' := fun c hc => (h c hc).2.2

theorem no_comment_part_blank (h : PartChars cs) (hd : PartChars ds) : ∀ c ∈ cs ++ ' ' :: ds, c ≠ ';' := by
  rw [List.forall_mem_append, List.forall_mem_cons]
  exact ⟨h.no_comment, by decide, hd.no_comment⟩

/-- A written line without a comment is cut at its blanks (R88). -/
theorem lineParts_of_no_comment {l : String} (h : ∀ c ∈ l.toList, c ≠ ';') :
    lineParts l = (cutBlanks l.toList).filter (!·.isEmpty) := by
  have hline : l.toList.takeWhile (· ≠ ';') = l.toList := List.takeWhile_eq_self_iff.2 (by simpa using h)
  rw [lineParts, hline]

/-- A written line reads back, when its name is one part (R88). -/
theorem readLine_renderLine {l : TraceLine} (hname : PartChars l.name.toList) (hne : l.name ≠ "") :
    readLine (renderLine l) = some l := by
  obtain ⟨name, operand⟩ := l
  cases operand with
  | none =>
    have hparts : lineParts name = [name.toList] := by
      rw [lineParts_of_no_comment hname.no_comment, cutBlanks_part hname]
      simp [hne]
    simp [readLine, renderLine, hparts]
  | some d =>
    have hline : (name ++ " " ++ hexByte d).toList = name.toList ++ ' ' :: (hexByte d).toList := by simp
    have hparts : lineParts (name ++ " " ++ hexByte d) = [name.toList, (hexByte d).toList] := by
      rw [lineParts_of_no_comment (hline ▸ no_comment_part_blank hname (hexByte_part d)), hline,
        cutBlanks_part_blank hname (hexByte_part d)]
      simp [hne, hexByte_toList]
    simp [readLine, renderLine, hparts, readByte_hexByte]

theorem textOf_name_part (i : Instr) : PartChars (textOf i).name.toList ∧ (textOf i).name ≠ "" := by
  cases i <;> simp [textOf, PartChars]

/-- A line reads back as the operation it is the line of (R88). -/
theorem assemble_textOf (i : Instr) : assemble (textOf i) = some i := by
  cases i with
  | reinit a => simp [assemble, textOf, withOperand, extractLsb'_setWidth_addr]
  | _ => rfl

/-- A written line reads back as the operation it is the line of (R88). -/
theorem assembleText_renderLine (i : Instr) : assembleText (renderLine (textOf i)) = some i := by
  obtain ⟨hname, hne⟩ := textOf_name_part i
  rw [assembleText, readLine_renderLine hname hne, Option.bind_some, assemble_textOf]

/-- `reinit` takes no operand above 0x7F (R88). -/
theorem assemble_reinit_of_large (h : 0x7F < d.toNat) : assemble ⟨"reinit", some d⟩ = none := by
  have hseven : d.getLsbD 7 = true := by
    rw [getLsbD_seven]
    exact decide_eq_true h
  have hreinit : assemble ⟨"reinit", some d⟩ = if d.getLsbD 7 then none else some (.reinit (d.extractLsb' 0 7)) := rfl
  rw [hreinit, if_pos hseven]

/-- Settles O55: the line as tokens is read by the table's names, the line as written by its parts. -/
theorem textReadsBack : Obligations.TextReadsBack := by
  unfold Obligations.TextReadsBack
  have hexec : readLine "disp.exec" = some ⟨"disp.exec", none⟩ :=
    readLine_renderLine (l := ⟨"disp.exec", none⟩) (by simp [PartChars]) (by simp)
  refine ⟨fun i => ⟨assemble_textOf i, assembleText_renderLine i⟩, ?_, fun d => assemble_reinit_of_large⟩
  rw [assembleText, hexec]
  rfl

end Sys2Proof.Machine
end

section
/-! PROOFS. The bus engine's operations, case by case (R113 to R140): one rule for each cell of R111 that has none yet, the
words with an operand (R80), and what the invariant says of the argument byte (R145). -/

namespace Sys2Proof.Machine

variable {s : State} {d : Byte}

-- the words

/-- A word is its code in bits 11 to 8 plus its low byte (R80). -/
theorem encode_eq_add (i : Instr) : encode i = BitVec.ofNat 12 (i.raw.op.toNat * 256) + i.raw.d.setWidth 12 := by
  have hfields : (encode i).toNat = i.raw.op.toNat * 256 + i.raw.d.toNat := by
    rw [← Laws.ofWord_encode i]
    exact toNat_eq_fields (encode i)
  apply BitVec.eq_of_toNat_eq
  have hlt := (encode i).isLt
  simp only [BitVec.toNat_add, BitVec.toNat_ofNat, BitVec.toNat_setWidth]
  omega

theorem encode_busOther (d : Byte) : encode (.busOther d) = 0x500 + d.setWidth 12 := by
  simpa [Instr.raw] using encode_eq_add (.busOther d)

theorem encode_reinit (a : BusAddr) : encode (.reinit a) = 0x600 + a.setWidth 12 := by
  simpa [Instr.raw] using encode_eq_add (.reinit a)

-- BUS_ADDR_RX

/-- BUS_ADDR_RX in IDLE with a full queue (R113). -/
theorem execBusAddrRx_of_full (hs : s.state = .idle) (hf : s.qFull = true) :
    execBusAddrRx s = s.answer .nack .idle .queueSaturation := by
  simp only [execBusAddrRx, hs, hf, if_true]

/-- BUS_ADDR_RX while a transaction is under way (R113). -/
theorem execBusAddrRx_of_busy (hs : s.state ≠ .idle) :
    execBusAddrRx s = s.answer .ack .idle .busProtocolViolation := by
  unfold execBusAddrRx
  cases h : s.state with
  | idle => exact absurd h hs
  | _ => rfl

/-- Settles O11: by R113's three cases. -/
theorem busAddrRxResult : Obligations.BusAddrRxResult := by
  unfold Obligations.BusAddrRxResult
  exact ⟨rfl, fun s => ⟨execBusAddrRx_of_full, execBusAddrRx_of_room, execBusAddrRx_of_busy⟩⟩

-- BUS_DATA_RX

/-- The command byte 0x00 (R117). -/
theorem execBusDataRx_of_zeroCommand (hs : s.state = .wrc) :
    execBusDataRx 0x00 s = s.answer .nack .idle .invalidFirstByte := by
  simp only [execBusDataRx, hs, State.receiveCommand, if_true]

/-- Settles O12: the command byte is 0x00 or it is latched. -/
theorem commandByteResult : Obligations.CommandByteResult := by
  unfold Obligations.CommandByteResult
  intro s d hs
  refine ⟨?zero, fun hd => execBusDataRx_of_command hs hd⟩
  case zero =>
    rintro rfl
    exact execBusDataRx_of_zeroCommand hs

/-- The argument byte with a full queue (R118). -/
theorem execBusDataRx_of_full (hs : s.state = .rc) (hf : s.qFull = true) :
    execBusDataRx d s = State.answer { s with argLatch := d } .nack .idle .queueSaturation := by
  simp only [execBusDataRx, hs, State.receiveArgument, hf, if_true]

/-- The slot an accepted argument byte's record goes to (R55, R118). -/
theorem memRead_acceptArgument_tail (s : State) (d : Byte) :
    (s.acceptArgument d).memRead s.qTail = recordOf s.cmdLatch d :=
  memRead_enqueue_tail { s with argLatch := d } (recordOf s.cmdLatch d)

/-- The slots an accepted argument byte leaves (R55, R118). -/
theorem memRead_acceptArgument_other {k : SlotIdx} (hk : k ≠ s.qTail) : (s.acceptArgument d).memRead k = s.memRead k :=
  memRead_enqueue_other { s with argLatch := d } (recordOf s.cmdLatch d) k hk

/-- The registers an accepted argument byte leaves, the storage apart (R118). -/
theorem acceptArgument_eq (s : State) (d : Byte) :
    s.acceptArgument d = { s with
      state := .rab, argLatch := d, qTail := s.qTail + 1, q := (s.acceptArgument d).q,
      trace := { TraceRecord.silent with busResp := some .ack } } := by
  rw [← inc8_eq]
  rfl

/-- Settles O13: without room the byte is latched and refused; with room its record is appended at the tail. -/
theorem argumentByteResult : Obligations.ArgumentByteResult := by
  unfold Obligations.ArgumentByteResult
  intro s d hs
  refine ⟨fun hf => execBusDataRx_of_full hs hf, fun hf => ⟨s.acceptArgument d, execBusDataRx_of_room hs hf, ?_⟩⟩
  exact ⟨memRead_acceptArgument_tail s d, fun k hk => memRead_acceptArgument_other hk, acceptArgument_eq s d⟩

/-- A data byte where none is expected (R119). -/
theorem execBusDataRx_of_unexpected (hw : s.state ≠ .wrc) (hr : s.state ≠ .rc) :
    execBusDataRx d s = s.answer .nack .idle .busProtocolViolation := by
  unfold execBusDataRx
  cases h : s.state with
  | wrc => exact absurd h hw
  | rc => exact absurd h hr
  | _ => rfl

/-- Settles O14: R119 is one cell for all the states it speaks of. -/
theorem unexpectedByteResult : Obligations.UnexpectedByteResult := by
  unfold Obligations.UnexpectedByteResult
  exact fun s d hw hr => execBusDataRx_of_unexpected hw hr

/-- Settles O39: the invariant keeps room for the command being received, so the byte is accepted and its record appended. -/
theorem argumentNeverRefused : Obligations.ArgumentNeverRefused := by
  unfold Obligations.ArgumentNeverRefused
  intro s t d hinv hs h
  have hroom : s.qFull = false := hinv.write_room (.inr hs)
  obtain rfl : s.acceptArgument d = t := Host.Outcome.next.inj ((execBusDataRx_of_room hs hroom).symm.trans h)
  exact ⟨rfl, rfl, queued_acceptArgument hroom d⟩

-- the operations that do not look at a byte received

/-- Settles O15: BUS_STOP is one cell of R111 for every state. -/
theorem busStopResult : Obligations.BusStopResult := by
  unfold Obligations.BusStopResult
  exact ⟨rfl, fun s => answer_next s .ack .idle .none⟩

/-- Settles O16: R125 has no case; the three writes of R205 are in it. -/
theorem busAddrTxResult : Obligations.BusAddrTxResult := by
  unfold Obligations.BusAddrTxResult
  exact ⟨rfl, fun s => rfl⟩

/-- BUS_DATA_TX in RRC (R129). -/
theorem execBusDataTx_of_requested (hs : s.state = .rrc) : execBusDataTx s = s.answer .last .trv .none := by
  simp only [execBusDataTx, hs]

/-- BUS_DATA_TX where no result was requested (R129). -/
theorem execBusDataTx_of_unrequested (hs : s.state ≠ .rrc) :
    execBusDataTx s = s.answer .ack .idle .busProtocolViolation := by
  unfold execBusDataTx
  cases h : s.state with
  | rrc => exact absurd h hs
  | _ => rfl

/-- Settles O17: in RRC and elsewhere; neither cell loads a byte. -/
theorem busDataTxResult : Obligations.BusDataTxResult := by
  unfold Obligations.BusDataTxResult
  exact ⟨rfl, fun s => ⟨execBusDataTx_of_requested, execBusDataTx_of_unrequested⟩⟩

/-- Settles O18: the status is in the word and in nothing that the operation does (R134). -/
theorem busOtherResult : Obligations.BusOtherResult := by
  unfold Obligations.BusOtherResult
  exact fun s status => ⟨encode_busOther status, answer_next s .ack .idle .busProtocolViolation⟩

-- REINIT

/-- REINIT in IDLE (R140). -/
theorem execReinit_of_idle {a : BusAddr} (hs : s.state = .idle) :
    execReinit a s = .next ((s.setAddr a).finish .silent) :=
  if_pos hs

/-- Settles O19: in IDLE and elsewhere. -/
theorem reinitResult : Obligations.ReinitResult := by
  unfold Obligations.ReinitResult
  exact fun s a => ⟨encode_reinit a, rfl, execReinit_of_idle, execReinit_of_busy⟩

end Sys2Proof.Machine
end

section
/-! PROOFS. Whose operations can be refused (R86, R232). -/

namespace Sys2Proof.Machine

variable {i : Instr} {s : State} {r : Refusal}

/-- R86's refusals are all of the loop's operations (R232). -/
theorem contextOf_of_refusalOf (h : refusalOf i s = some r) : contextOf (agentOf i) = .cooperative := by
  obtain ⟨rfl, -, -⟩ | ⟨⟨a, rfl⟩, -, -⟩ | ⟨⟨a, rfl⟩, -, -⟩ := refusalOf_cases h
  · rfl
  · rfl
  · rfl

/-- Settles O34: an operation that is not refused completes, and only the loop's are refused. -/
theorem interruptOperationsComplete : Obligations.InterruptOperationsComplete := by
  unfold Obligations.InterruptOperationsComplete
  intro i hi s
  refine exec_completes_iff.2 (Option.eq_none_iff_forall_ne_some.2 fun r hr => ?_)
  cases hi.symm.trans (contextOf_of_refusalOf hr)

end Sys2Proof.Machine
end

section
/-! PROOFS. The dispatcher's operations, case by case (R150, R153), and the dispatch loop run to its end (R149, R158): one
pass handles the first record, and the loop is as many passes as records are queued. -/

namespace Sys2Proof.Machine

variable {s : State} {r : Slot} {a : Byte}

-- DISP_TAKE

/-- DISP_TAKE with a record waiting, the successor of the head written out (R9, R150). -/
theorem takeCommand_eq (s : State) :
    s.takeCommand = { s with inflight := some (s.memRead s.qHead), qHead := s.qHead + 1, trace := .silent } := by
  rw [State.takeCommand, inc8_eq]
  rfl

/-- Settles O20: by R150's three cases; the queue is empty just when its indices agree (R52). -/
theorem dispTakeResult : Obligations.DispTakeResult := by
  unfold Obligations.DispTakeResult
  refine ⟨rfl, fun s => ⟨fun hi => ?inflight, fun hi he => ?empty, fun hi he => ?waiting⟩⟩
  case inflight =>
    obtain ⟨r, hr⟩ := Option.ne_none_iff_exists'.1 hi
    exact execDispTake_of_inflight hr
  case empty => exact execDispTake_of_empty hi (qEmpty_iff.2 he)
  case waiting =>
    have hwaiting : s.qEmpty = false := Bool.eq_false_iff.2 (mt qEmpty_iff.1 he)
    rw [← takeCommand_eq]
    exact execDispTake_of_waiting hi hwaiting

-- DISP_EXEC

theorem encode_dispExec (a : Byte) : encode (.dispExec a) = 0x800 + a.setWidth 12 := by
  simpa [Instr.raw] using encode_eq_add (.dispExec a)

/-- DISP_EXEC with a read command in flight (R153). -/
theorem execDispExec_of_read (hi : s.inflight = some r) (hr : isRead s.cfg (recCommand r) = true) :
    execDispExec a s = .next (State.finish { s with readResult := a, inflight := none } (.readHandler r)) := by
  simp only [execDispExec, hi, hr, if_true]

/-- DISP_EXEC with a write command in flight (R153). -/
theorem execDispExec_of_write (hi : s.inflight = some r) (hr : isRead s.cfg (recCommand r) = false) :
    execDispExec a s = .next (State.finish { s with inflight := none } (.writeHandler r)) := by
  simp only [execDispExec, hi, hr, Bool.false_eq_true, if_false]

/-- The read handler is called with the two bytes of the record (R51, R153). -/
theorem readHandler_recordOf (c b : Byte) : TraceRecord.readHandler (recordOf c b) =
    { TraceRecord.silent with readCall := some (c, b), liveness := true } := by
  rw [TraceRecord.readHandler, recCommand_recordOf, recArgument_recordOf]

/-- The write handler is called with the two bytes of the record (R51, R153). -/
theorem writeHandler_recordOf (c b : Byte) : TraceRecord.writeHandler (recordOf c b) =
    { TraceRecord.silent with writeCall := some (c, b), liveness := true } := by
  rw [TraceRecord.writeHandler, recCommand_recordOf, recArgument_recordOf]

/-- Settles O21: with nothing in flight, and for the record `recordOf c b` in flight by the class of its command byte. -/
theorem dispExecResult : Obligations.DispExecResult := by
  unfold Obligations.DispExecResult
  intro s a
  refine ⟨encode_dispExec a, execDispExec_of_none, fun c b hi hr => ?read, fun c b hi hr => ?write⟩
  case read =>
    rw [← readHandler_recordOf]
    exact execDispExec_of_read hi ((congrArg _ (recCommand_recordOf c b)).trans hr)
  case write =>
    rw [← writeHandler_recordOf]
    exact execDispExec_of_write hi ((congrArg _ (recCommand_recordOf c b)).trans hr)

-- the dispatch loop

/-- One pass of the loop hands the first record to a handler and leaves the rest queued (R149, R158). -/
theorem runOps_dispOne (s₀ : State) (a : Byte) {rs : List Slot} (hi : s.inflight = none) (hq : queued s = r :: rs) :
    ∃ ts t, runOps (expand (.dispOne a) s₀) s = some (ts, t) ∧
      t.inflight = none ∧ queued t = rs ∧ ts.filterMap handlerCall = [r] := by
  obtain ⟨u, htake⟩ := execDispTake_completes hi
  obtain ⟨-, hflight, hrest⟩ := execDispTake_queued htake
  rw [hq] at hflight hrest
  obtain ⟨t, hexec⟩ := execDispExec_completes (a := a) (s := u) (by simp [hflight])
  obtain ⟨hcall, hnone⟩ := execDispExec_inflight hexec
  have htakeCall : handlerCall u.trace = none := handlerCall_eq_none (i := .dispTake) htake (by simp)
  have hkept : queued t = queued u := by simpa [accepted] using exec_queued (i := .dispExec a) hexec (by simp)
  exact ⟨_, t, runOps_pair htake hexec, hnone, hkept.trans hrest, by simp [htakeCall, hcall, hflight]⟩

/-- As many passes as records are queued hand each to a handler, in order (R57, R158). -/
theorem runOps_dispatchLoop (s₀ : State) {answers : List Byte} (hi : s.inflight = none)
    (hlen : answers.length = (queued s).length) :
    ∃ ts t, runOps (answers.flatMap fun a => expand (.dispOne a) s₀) s = some (ts, t) ∧
      t.inflight = none ∧ queued t = [] ∧ ts.filterMap handlerCall = queued s := by
  induction answers generalizing s with
  | nil =>
    have hq : queued s = [] := List.length_eq_zero_iff.1 hlen.symm
    exact ⟨[], s, rfl, hi, hq, hq.symm⟩
  | cons a answers ih =>
    obtain ⟨r, rs, hq⟩ := List.exists_cons_of_length_eq_add_one hlen.symm
    obtain ⟨us, u, hpass, hflight, hrest, hcall⟩ := runOps_dispOne s₀ a hi hq
    obtain ⟨vs, t, hloop, hnone, hempty, hcalls⟩ := ih hflight (by simpa [hq, hrest] using hlen)
    refine ⟨us ++ vs, t, (runOps_append ..).2 ⟨u, us, vs, hpass, hloop, rfl⟩, hnone, hempty, ?_⟩
    rw [List.filterMap_append, hcall, hcalls, hrest, hq, List.singleton_append]

/-- Settles O48: the loop has handled all that was queued, and on the empty queue its exit test does nothing (R150). -/
theorem drainEmptiesQueue : Obligations.DrainEmptiesQueue := by
  unfold Obligations.DrainEmptiesQueue
  intro s answers hi hlen
  obtain ⟨ts, t, hrun, hnone, hq, hcalls⟩ := runOps_dispatchLoop s hi (hlen.trans (queued_length s).symm)
  have hempty : t.qEmpty = true := queued_eq_nil_iff.1 hq
  exact ⟨ts, t, hrun, hempty, hnone, hcalls, execDispTake_of_empty hnone hempty⟩

end Sys2Proof.Machine
end

section
/-! PROOFS. The handshake's operations, case by case (R170 to R186): the arithmetic of the pulse count (R9, R174, R180), and
one rule for each branch that has none yet. -/

namespace Sys2Proof.Machine

variable {s : State} {n : Byte}

-- the pulse count

/-- The count saturates at 255 (R9). -/
theorem sat8_toNat (a : Nat) : (sat8 a).toNat = min a 255 := by
  simp only [sat8, BitVec.toNat_ofNat]
  omega

/-- Below 255 one edge more is one more (R170). -/
theorem sat8_succ_of_ne (h : n ≠ 255) : sat8 (n.toNat + 1) = n + 1 := by
  apply BitVec.eq_of_toNat_eq
  rw [sat8_toNat]
  bv_omega

/-- At 255 the count stays (R171 (a)). -/
theorem sat8_succ_saturated : sat8 ((255 : Byte).toNat + 1) = 255 := rfl

/-- A valid count is not zero and its bit 0 is clear (R174). -/
theorem validCount_iff : validCount n = true ↔ n ≠ 0 ∧ n.getLsbD 0 = false := by
  have hzero : n.toNat ≠ 0 ↔ n ≠ 0 := BitVec.toNat_ne_iff_ne (y := 0)
  have heven : n.toNat % 2 = 0 ↔ n.getLsbD 0 = false := by simp [BitVec.getLsbD, Nat.testBit_zero]
  simp only [validCount, Bool.and_eq_true, bne_iff_ne, beq_iff_eq, hzero, heven]

/-- The index is the count halved, in eight bits (R180). -/
theorem indexOfCount_eq (n : Byte) : indexOfCount n = n / 2 := by
  apply BitVec.eq_of_toNat_eq
  have htwo : (2 : Byte).toNat = 2 := rfl
  simp only [indexOfCount, BitVec.toNat_ofNat, BitVec.toNat_udiv, htwo]
  omega

/-- The pulses to send are two more than the count, in nine bits (R180). -/
theorem emitOfCount_eq (n : Byte) : emitOfCount n = n.setWidth 9 + 2 := by
  apply BitVec.eq_of_toNat_eq
  have htwo : (2 : EmitCount).toNat = 2 := rfl
  simp only [emitOfCount, BitVec.toNat_ofNat, BitVec.toNat_add, BitVec.toNat_setWidth, htwo]
  omega

-- ADDR_FALL

/-- Settles O23: the saturating count below 255 and at 255. -/
theorem addrFallResult : Obligations.AddrFallResult := by
  unfold Obligations.AddrFallResult
  refine ⟨rfl, fun s => ⟨fun hp => ?counting, fun hp => ?saturated⟩⟩
  case counting =>
    rw [← sat8_succ_of_ne hp]
    rfl
  case saturated =>
    have hcount : sat8 (s.pulseCount.toNat + 1) = s.pulseCount := by rw [hp, sat8_succ_saturated]
    show execAddrFall s = _
    rw [execAddrFall, hcount]
    rfl

-- ADDR_TICK

/-- ADDR_TICK with the timer stopped (R174). -/
theorem execAddrTick_of_stopped (ha : s.burstArmed = false) : execAddrTick s = s.noEffect := if_pos ha

/-- ADDR_TICK before the last tick of the window (R174). -/
theorem execAddrTick_of_counting (ha : s.burstArmed = true) (ht : s.burstTicks + 1 < s.cfg.nBurst) :
    execAddrTick s = .next (State.finish { s with burstTicks := s.burstTicks + 1 } .silent) := by
  rw [execAddrTick, if_neg (by simp [ha]), if_pos ht]

/-- ADDR_TICK at the end of the window (R174). -/
theorem execAddrTick_of_complete (ha : s.burstArmed = true) (ht : s.cfg.nBurst ≤ s.burstTicks + 1) :
    execAddrTick s = .next s.completeBurst := by
  rw [execAddrTick, if_neg (by simp [ha]), if_neg (Nat.not_lt.2 ht)]

/-- A burst that completes with a valid count leaves it pending (R174). -/
theorem completeBurst_of_valid (hv : validCount s.pulseCount = true) :
    s.completeBurst = { s with
      pulseCount := 0, burstArmed := false, burstTicks := 0, assignPending := some s.pulseCount, trace := .silent } :=
  if_pos hv

/-- A burst that completes with any other count is noise (R174, R175). -/
theorem completeBurst_of_noise (hv : validCount s.pulseCount = false) :
    s.completeBurst = { s with
      pulseCount := 0, burstArmed := false, burstTicks := 0,
      trace := { TraceRecord.silent with cause := .addressingNoise } } :=
  if_neg (by simp [hv])

/-- Settles O24: the timer stopped, counting, and complete with the count valid or not. -/
theorem addrTickResult : Obligations.AddrTickResult := by
  unfold Obligations.AddrTickResult
  refine ⟨rfl, fun s => ⟨execAddrTick_of_stopped, execAddrTick_of_counting, fun ha ht hne heven => ?valid,
    fun ha ht hnoise => ?noise⟩⟩
  case valid =>
    rw [← completeBurst_of_valid (validCount_iff.2 ⟨hne, heven⟩)]
    exact execAddrTick_of_complete ha ht
  case noise =>
    have hv : validCount s.pulseCount = false := by
      rw [Bool.eq_false_iff, Ne, validCount_iff]
      rintro ⟨hne, heven⟩
      rcases hnoise with hzero | hodd
      · exact hne hzero
      · exact Bool.false_ne_true (heven.symm.trans hodd)
    rw [← completeBurst_of_noise hv]
    exact execAddrTick_of_complete ha ht

-- ADDR_COMMIT

/-- ADDR_COMMIT is held while the engine is busy (R180). -/
theorem execAddrCommit_of_busy (hs : s.state ≠ .idle) : execAddrCommit s = s.noEffect := by
  cases hp : s.assignPending with
  | none => exact execAddrCommit_of_none hp
  | some n => simp only [execAddrCommit, hp, if_neg hs]

/-- ADDR_COMMIT of a pending count with the engine idle (R180). -/
theorem execAddrCommit_of_idle (hp : s.assignPending = some n) (hs : s.state = .idle) :
    execAddrCommit s = .next (s.commitAssignment n) := by
  simp only [execAddrCommit, hp, if_pos hs]

/-- What a commit leaves, the index and the number of pulses written out (R180). -/
theorem commitAssignment_eq (s : State) (n : Byte) :
    s.commitAssignment n = { s with
      ownAddr := deviceAddress s.cfg.deviceClass (n / 2), emitRemaining := n.setWidth 9 + 2, assignPending := none,
      trace := { TraceRecord.silent with
        persistReq := some ((deviceAddress s.cfg.deviceClass (n / 2)).setWidth 8), assigned := some (n / 2) } } := by
  rw [← indexOfCount_eq, ← emitOfCount_eq]
  rfl

/-- Settles O25: by R180's three cases. -/
theorem addrCommitResult : Obligations.AddrCommitResult := by
  unfold Obligations.AddrCommitResult
  refine ⟨rfl, rfl, fun s => ⟨execAddrCommit_of_none, execAddrCommit_of_busy, fun n hp hs => ?_⟩⟩
  rw [← commitAssignment_eq]
  exact execAddrCommit_of_idle hp hs

-- ADDR_EMIT

/-- The record of an emission (R186). -/
def TraceRecord.pulse : TraceRecord := { TraceRecord.silent with addrOutPulse := true }

/-- ADDR_EMIT with a pulse left (R186). -/
theorem execAddrEmit_of_left (he : s.emitRemaining ≠ 0) :
    execAddrEmit s = .next (State.finish { s with emitRemaining := s.emitRemaining - 1 } .pulse) :=
  if_neg he

/-- An emission leaves one pulse fewer (R186). -/
theorem emitRemaining_sub_one {e : EmitCount} (he : e ≠ 0) : (e - 1).toNat + 1 = e.toNat := by bv_omega

/-- Settles O27: with no pulse left and with one. -/
theorem addrEmitResult : Obligations.AddrEmitResult := by
  unfold Obligations.AddrEmitResult
  exact ⟨rfl, rfl, fun s => ⟨execAddrEmit_of_zero,
    fun he => ⟨_, execAddrEmit_of_left he, emitRemaining_sub_one he, rfl⟩⟩⟩

end Sys2Proof.Machine
end

section
/-! PROOFS. A burst from its first edge to its last emission (R190). Edges and quiet ticks together leave what a structure
says, `BurstEnded`, whatever the number of edges; the commit then acts on that, and the emissions count down. -/

namespace Sys2Proof.Machine

variable {i : Instr} {is : List Instr} {s t u : State} {ts us : List TraceRecord} {n : Byte} {k : Nat}

-- what a run passes on

/-- No record of the run makes a request, an assignment or a pulse. -/
def PassesNothing (ts : List TraceRecord) : Prop :=
  ∀ x ∈ ts, x.persistReq = none ∧ x.assigned = none ∧ x.addrOutPulse = false

theorem PassesNothing.append (h : PassesNothing ts) (h' : PassesNothing us) : PassesNothing (ts ++ us) :=
  List.forall_mem_append.2 ⟨h, h'⟩

theorem passesNothing_replicate_silent (k : Nat) : PassesNothing (List.replicate k .silent) := by
  intro x hx
  rw [List.eq_of_mem_replicate hx]
  exact ⟨rfl, rfl, rfl⟩

theorem PassesNothing.persistReq (h : PassesNothing ts) : ts.filterMap (·.persistReq) = [] :=
  List.filterMap_eq_nil_iff.2 fun x hx => (h x hx).1

theorem PassesNothing.assigned (h : PassesNothing ts) : ts.filterMap (·.assigned) = [] :=
  List.filterMap_eq_nil_iff.2 fun x hx => (h x hx).2.1

theorem PassesNothing.pulsesIn (h : PassesNothing ts) : pulsesIn ts = 0 := by
  have hnone : ts.filter (·.addrOutPulse) = [] := List.filter_eq_nil_iff.2 fun x hx => by simp [(h x hx).2.2]
  rw [Machine.pulsesIn, hnone, List.length_nil]

theorem pulsesIn_append (ts us : List TraceRecord) : pulsesIn (ts ++ us) = pulsesIn ts + pulsesIn us := by
  simp [pulsesIn]

/-- Only a commit requests and assigns, and only an emission sends a pulse (R40). -/
theorem exec_passesNothing (h : exec i s = .next t) (hcommit : i ≠ .addrCommit) (hemit : i ≠ .addrEmit) :
    PassesNothing [t.trace] := by
  have hdriven := exec_outputsDriven h
  have hpersist : t.trace.persistReq = none := not_not.1 fun hx => hcommit (hdriven.persistReq.1 hx).1
  have hassigned : t.trace.assigned = none := not_not.1 fun hx => hdriven.assigned.1 hx hpersist
  have hpulse : t.trace.addrOutPulse = false := Bool.eq_false_iff.2 fun hx => hemit (hdriven.pulse.1 hx).1
  exact List.forall_mem_singleton.2 ⟨hpersist, hassigned, hpulse⟩

theorem runOps_passesNothing (hcommit : .addrCommit ∉ is) (hemit : .addrEmit ∉ is)
    (h : runOps is s = some (ts, t)) : PassesNothing ts := by
  induction is generalizing s ts with
  | nil =>
    obtain ⟨rfl, -⟩ : [] = ts ∧ s = t := by simpa [runOps] using h
    exact List.forall_mem_nil _
  | cons i is ih =>
    rw [List.mem_cons, not_or] at hcommit hemit
    obtain ⟨u, us, hfirst, hrest, rfl⟩ := (runOps_cons ..).1 h
    exact (exec_passesNothing hfirst (Ne.symm hcommit.1) (Ne.symm hemit.1)).append (ih hcommit.2 hemit.2 hrest)

-- edges and ticks

/-- What `k` edges leave, `k` at least 1: the count with them, and the timer restarted by the last (R170). -/
def State.countEdges (s : State) (k : Nat) : State := { s with
  pulseCount := sat8 (s.pulseCount.toNat + k), burstArmed := true, burstTicks := 0, trace := .silent }

/-- One edge more (R170): a count that has saturated stays. -/
theorem execAddrFall_countEdges (s : State) (k : Nat) : exec .addrFall (s.countEdges k) = .next (s.countEdges (k + 1)) := by
  have hcount : sat8 ((sat8 (s.pulseCount.toNat + k)).toNat + 1) = sat8 (s.pulseCount.toNat + (k + 1)) := by
    apply BitVec.eq_of_toNat_eq
    simp only [sat8_toNat]
    omega
  rw [State.countEdges, State.countEdges, ← hcount]
  rfl

theorem runOps_addrFalls (s : State) (k : Nat) :
    ∃ ts, runOps (List.replicate (k + 1) .addrFall) s = some (ts, s.countEdges (k + 1)) := by
  induction k with
  | zero => exact ⟨_, rfl⟩
  | succ k ih =>
    obtain ⟨ts, hrun⟩ := ih
    rw [List.replicate_succ']
    exact ⟨_, runOps_concat.2 ⟨_, ts, hrun, execAddrFall_countEdges s (k + 1), rfl⟩⟩

/-- Ticks before the last of the window add up (R174). -/
theorem runOps_addrTicks_counting (ha : s.burstArmed = true) (hk : s.burstTicks + k < s.cfg.nBurst) :
    ∃ ts r, runOps (List.replicate k .addrTick) s =
      some (ts, { s with burstTicks := s.burstTicks + k, trace := r }) := by
  induction k with
  | zero => exact ⟨[], s.trace, rfl⟩
  | succ k ih =>
    obtain ⟨ts, r, hrun⟩ := ih (by omega)
    rw [List.replicate_succ']
    exact ⟨_, _, runOps_concat.2 ⟨_, ts, hrun, execAddrTick_of_counting ha hk, rfl⟩⟩

/-- A whole window of ticks after an edge completes the burst (R174). -/
theorem runOps_addrTicks_complete (hwf : s.cfg.wf = true) (ha : s.burstArmed = true) (ht : s.burstTicks = 0) :
    ∃ ts, runOps (List.replicate s.cfg.nBurst .addrTick) s = some (ts, s.completeBurst) := by
  obtain ⟨hpos, -⟩ : 1 ≤ s.cfg.nBurst ∧ 1 ≤ s.cfg.mEvt := by simpa [Config.wf] using hwf
  obtain ⟨m, hm⟩ := Nat.exists_eq_add_of_le' hpos
  obtain ⟨ts, r, hrun⟩ := runOps_addrTicks_counting (k := m) ha (by omega)
  have hlast : exec .addrTick { s with burstTicks := s.burstTicks + m, trace := r } = .next s.completeBurst :=
    execAddrTick_of_complete (s := { s with burstTicks := s.burstTicks + m, trace := r }) ha
      (show s.cfg.nBurst ≤ s.burstTicks + m + 1 by omega)
  rw [hm, List.replicate_succ']
  exact ⟨_, runOps_concat.2 ⟨_, ts, hrun, hlast, rfl⟩⟩

/-- What a burst with the count `n` leaves once it is over: the count cleared, a valid one pending, and the registers that
edges and ticks do not write (R170, R174). -/
structure BurstEnded (s : State) (n : Byte) (t : State) : Prop where
  pulseCount : t.pulseCount = 0
  assignPending : t.assignPending = if validCount n then some n else s.assignPending
  state : t.state = s.state
  ownAddr : t.ownAddr = s.ownAddr
  emitRemaining : t.emitRemaining = s.emitRemaining
  cfg : t.cfg = s.cfg

/-- The completing tick ends the burst (R174). -/
theorem completeBurst_ended (s : State) : BurstEnded s s.pulseCount s.completeBurst := by
  cases hv : validCount s.pulseCount with
  | true =>
    rw [completeBurst_of_valid hv]
    exact ⟨rfl, by simp [hv], rfl, rfl, rfl, rfl⟩
  | false =>
    rw [completeBurst_of_noise hv]
    exact ⟨rfl, by simp [hv], rfl, rfl, rfl, rfl⟩

/-- From a cleared count the burst that ends is the one of the edges since (R174). -/
theorem countEdges_ended (hp : s.pulseCount = 0) (k : Nat) : BurstEnded s (sat8 k) (s.countEdges k).completeBurst := by
  have hcount : (s.countEdges k).pulseCount = sat8 k := by simp [State.countEdges, hp]
  rw [← hcount]
  exact { completeBurst_ended (s.countEdges k) with }

/-- Without an edge a tick finds nothing to assign, also where the timer runs (R174). -/
theorem execAddrTick_ended (hp : s.pulseCount = 0) (h : exec .addrTick s = .next t) : BurstEnded s 0 t := by
  obtain ⟨-, rfl⟩ | ⟨-, -, rfl⟩ | ⟨-, -, rfl⟩ := execAddrTick_cases h
  · exact ⟨hp, rfl, rfl, rfl, rfl, rfl⟩
  · exact ⟨hp, rfl, rfl, rfl, rfl, rfl⟩
  · rw [← hp]
    exact completeBurst_ended s

theorem BurstEnded.trans_zero (h : BurstEnded s 0 t) (h' : BurstEnded t 0 u) : BurstEnded s 0 u where
  pulseCount := h'.pulseCount
  assignPending := h'.assignPending.trans h.assignPending
  state := h'.state.trans h.state
  ownAddr := h'.ownAddr.trans h.ownAddr
  emitRemaining := h'.emitRemaining.trans h.emitRemaining
  cfg := h'.cfg.trans h.cfg

theorem runOps_addrTicks_ended (hp : s.pulseCount = 0) (k : Nat) :
    ∃ ts t, runOps (List.replicate k .addrTick) s = some (ts, t) ∧ BurstEnded s 0 t := by
  induction k with
  | zero => exact ⟨[], s, rfl, hp, rfl, rfl, rfl, rfl, rfl⟩
  | succ k ih =>
    obtain ⟨ts, t, hrun, hended⟩ := ih
    obtain ⟨u, htick⟩ := execAddrTick_completes t
    rw [List.replicate_succ']
    exact ⟨_, u, runOps_concat.2 ⟨t, ts, hrun, htick, rfl⟩,
      hended.trans_zero (execAddrTick_ended hended.pulseCount htick)⟩

/-- A burst of `k` edges and a quiet window: the count is `k`, saturated, and nothing is passed on yet (R190). -/
theorem runOps_burst (hwf : s.cfg.wf = true) (hp : s.pulseCount = 0) (k : Nat) :
    ∃ ts t, runOps (expand (.addrBurst k) s ++ expand .addrQuiet s) s = some (ts, t) ∧ PassesNothing ts ∧
      BurstEnded s (sat8 k) t := by
  have hended : ∃ ts t, runOps (expand (.addrBurst k) s ++ expand .addrQuiet s) s = some (ts, t) ∧
      BurstEnded s (sat8 k) t := by
    cases k with
    | zero => exact runOps_addrTicks_ended hp s.cfg.nBurst
    | succ k =>
      obtain ⟨ts, hfalls⟩ := runOps_addrFalls s k
      obtain ⟨us, hticks⟩ := runOps_addrTicks_complete (s := s.countEdges (k + 1)) hwf rfl rfl
      exact ⟨_, _, (runOps_append ..).2 ⟨_, ts, us, hfalls, hticks, rfl⟩, countEdges_ended hp (k + 1)⟩
  obtain ⟨ts, t, hrun, ht⟩ := hended
  exact ⟨ts, t, hrun, runOps_passesNothing (by simp [expand]) (by simp [expand]) hrun, ht⟩

-- emissions

/-- As many emissions as pulses remain send them all and leave none (R186). -/
theorem runOps_addrEmits (he : s.emitRemaining.toNat = k) :
    ∃ r, runOps (List.replicate k .addrEmit) s =
      some (List.replicate k .pulse, { s with emitRemaining := 0, trace := r }) := by
  induction k generalizing s with
  | zero =>
    have hzero : s.emitRemaining = 0 := BitVec.eq_of_toNat_eq he
    exact ⟨s.trace, by rw [← hzero]; rfl⟩
  | succ k ih =>
    have hleft : s.emitRemaining ≠ 0 := fun h => by simp [h] at he
    obtain ⟨r, hrest⟩ := ih (s := State.finish { s with emitRemaining := s.emitRemaining - 1 } .pulse)
      (Nat.succ.inj ((emitRemaining_sub_one hleft).trans he))
    exact ⟨r, (runOps_cons ..).2 ⟨_, _, execAddrEmit_of_left hleft, hrest, rfl⟩⟩

/-- With no pulse left emissions do nothing (R186). -/
theorem runOps_addrEmits_of_zero (he : s.emitRemaining = 0) (k : Nat) :
    ∃ r, runOps (List.replicate k .addrEmit) s = some (List.replicate k .silent, s.finish r) := by
  induction k generalizing s with
  | zero => exact ⟨s.trace, rfl⟩
  | succ k ih =>
    obtain ⟨r, hrest⟩ := ih (s := s.finish .silent) he
    exact ⟨r, (runOps_cons ..).2 ⟨_, _, execAddrEmit_of_zero he, hrest, rfl⟩⟩

/-- Emissions request and assign nothing; each sends one pulse (R186). -/
theorem outputs_replicate_pulse (k : Nat) :
    (List.replicate k TraceRecord.pulse).filterMap (·.persistReq) = [] ∧
    (List.replicate k TraceRecord.pulse).filterMap (·.assigned) = [] ∧ pulsesIn (List.replicate k .pulse) = k := by
  simp [TraceRecord.pulse, TraceRecord.silent, pulsesIn]

-- the valid burst

/-- An even count from 2 to 254 is exact and valid (R174). -/
theorem validCount_sat8 : validCount (sat8 k) = true ↔ k % 2 = 0 ∧ k ≠ 0 ∧ k < 255 := by
  simp only [validCount, sat8_toNat, Bool.and_eq_true, bne_iff_ne, beq_iff_eq]
  omega

/-- The index of a count that did not saturate (R180). -/
theorem indexOfCount_sat8 (hk : k < 255) : indexOfCount (sat8 k) = BitVec.ofNat 8 (k / 2) := by
  rw [indexOfCount, sat8_toNat, Nat.min_eq_left hk.le]

/-- The number of pulses to send for a count that did not saturate (R180). -/
theorem emitOfCount_sat8 (hk : k < 255) : (emitOfCount (sat8 k)).toNat = k + 2 := by
  simp only [emitOfCount, sat8_toNat, BitVec.toNat_ofNat]
  omega

/-- A valid burst and its commit: one assignment, one request, and `k + 2` pulses to send (R190 (1)). -/
theorem runOps_assignment (hwf : s.cfg.wf = true) (hs : s.state = .idle) (hp : s.pulseCount = 0)
    (hv : validCount (sat8 k) = true) :
    ∃ ts t, runOps (expand (.addrBurst k) s ++ expand .addrQuiet s ++ [.addrCommit]) s = some (ts, t) ∧
      t.ownAddr = deviceAddress s.cfg.deviceClass (BitVec.ofNat 8 (k / 2)) ∧
      ts.filterMap (·.persistReq) = [t.ownAddr.setWidth 8] ∧
      ts.filterMap (·.assigned) = [BitVec.ofNat 8 (k / 2)] ∧ pulsesIn ts = 0 ∧
      t.emitRemaining.toNat = k + 2 ∧ t.pulseCount = 0 := by
  obtain ⟨-, -, hk⟩ := validCount_sat8.1 hv
  obtain ⟨ts, u, hrun, hquiet, hended⟩ := runOps_burst hwf hp k
  have hpending : u.assignPending = some (sat8 k) := hended.assignPending.trans (if_pos hv)
  have hcommit : exec .addrCommit u = .next (u.commitAssignment (sat8 k)) :=
    execAddrCommit_of_idle hpending (hended.state.trans hs)
  refine ⟨_, _, runOps_concat.2 ⟨u, ts, hrun, hcommit, rfl⟩, ?_, ?_, ?_, ?_, emitOfCount_sat8 hk, hended.pulseCount⟩
  · rw [← hended.cfg, ← indexOfCount_sat8 hk]
    rfl
  · rw [List.filterMap_append, hquiet.persistReq]
    rfl
  · rw [List.filterMap_append, hquiet.assigned, ← indexOfCount_sat8 hk]
    rfl
  · rw [pulsesIn_append, hquiet.pulsesIn]
    rfl

/-- Settles O50: the assignment, then as many emissions as pulses remain. -/
theorem validBurstAssigns : Obligations.ValidBurstAssigns := by
  unfold Obligations.ValidBurstAssigns
  intro s k hwf hs hp heven hlow hhigh
  obtain ⟨ts, t, hrun, haddr, hpersist, hassigned, hsilent, hleft, hcleared⟩ :=
    runOps_assignment hwf hs hp (validCount_sat8.2 ⟨heven, by omega, by omega⟩)
  obtain ⟨r, hemits⟩ := runOps_addrEmits hleft
  obtain ⟨hnoRequest, hnoIndex, hpulses⟩ := outputs_replicate_pulse (k + 2)
  refine ⟨_, _, (runOps_append ..).2 ⟨t, ts, _, hrun, hemits, rfl⟩, haddr, ?_, ?_, ?_, rfl, hcleared⟩
  · rw [List.filterMap_append, hpersist, hnoRequest, List.append_nil]
  · rw [List.filterMap_append, hassigned, hnoIndex, List.append_nil]
  · rw [pulsesIn_append, hsilent, hpulses, Nat.zero_add]

-- noise

/-- Settles O51: noise leaves nothing pending, so the commit and the emissions find nothing to do. -/
theorem noisyBurstIgnored : Obligations.NoisyBurstIgnored := by
  unfold Obligations.NoisyBurstIgnored
  intro s k hwf hp hnone hzero hnoise
  obtain ⟨ts, u, hrun, hquiet, hended⟩ := runOps_burst hwf hp k
  have hv : ¬validCount (sat8 k) = true := by
    rw [validCount_sat8]
    omega
  have hpending : u.assignPending = none := (hended.assignPending.trans (if_neg hv)).trans hnone
  have hleft : u.emitRemaining = 0 := hended.emitRemaining.trans hzero
  have hcommit : exec .addrCommit u = .next (u.finish .silent) := execAddrCommit_of_none hpending
  have hcommitted := runOps_concat.2 ⟨u, ts, hrun, hcommit, rfl⟩
  obtain ⟨r, hemits⟩ := runOps_addrEmits_of_zero (s := u.finish .silent) hleft (k + 2)
  have hall := (hquiet.append (passesNothing_replicate_silent 1)).append (passesNothing_replicate_silent (k + 2))
  exact ⟨_, _, (runOps_append ..).2 ⟨_, _, _, hcommitted, hemits, rfl⟩, hended.ownAddr, hpending, hleft,
    hended.pulseCount, hall.persistReq, hall.assigned, hall.pulsesIn⟩

-- the chain

/-- Settles O52: the first module's burst is valid (R190 (1)), and the `2j + 2` pulses it sends are a valid burst again. -/
theorem chainHandsOnNextIndex : Obligations.ChainHandsOnNextIndex := by
  unfold Obligations.ChainHandsOnNextIndex
  intro a b j hwfA hwfB hsA hsB hpA hpB hj hmax
  obtain ⟨ta, a', hrunA, -, -, hassignedA, hpulses, -, -⟩ :=
    validBurstAssigns a (2 * j) hwfA hsA hpA (by omega) (by omega) (by omega)
  obtain ⟨tb, b', hrunB, haddrB, -, hassignedB, -, -, -⟩ :=
    runOps_assignment (k := 2 * j + 2) hwfB hsB hpB (validCount_sat8.2 ⟨by omega, by omega, by omega⟩)
  have hhalf : 2 * j / 2 = j := by omega
  have hnext : (2 * j + 2) / 2 = j + 1 := by omega
  rw [hhalf] at hassignedA
  rw [hnext] at haddrB hassignedB
  refine ⟨ta, a', tb, b', hrunA, hassignedA, ?_, hassignedB, haddrB⟩
  rw [hpulses]
  exact hrunB

end Sys2Proof.Machine
end

section
/-! PROOFS. The event line's operations (R200 to R206): EVT_ASSERT, EVT_RELEASE, and EVT_TICK branch by branch. -/

namespace Sys2Proof.Machine

variable {s : State}

/-- Settles O28: R200 has no case, and the level output is the register it sets (R41). -/
theorem evtAssertResult : Obligations.EvtAssertResult := by
  unfold Obligations.EvtAssertResult
  refine ⟨rfl, rfl, fun s => ⟨rfl, fun t h => ?_⟩⟩
  obtain rfl := Host.Outcome.next.inj h
  rfl

/-- Settles O29: R203 is the release of R205 and nothing else. -/
theorem evtReleaseResult : Obligations.EvtReleaseResult := by
  unfold Obligations.EvtReleaseResult
  exact ⟨rfl, rfl, fun _ => rfl⟩

/-- EVT_TICK with the timer stopped (R206). -/
theorem execEvtTick_of_stopped (ha : s.evtArmed = false) : execEvtTick s = s.noEffect := if_pos ha

/-- EVT_TICK before the last tick of the timeout (R206). -/
theorem execEvtTick_of_counting (ha : s.evtArmed = true) (ht : s.evtTicks + 1 < s.cfg.mEvt) :
    execEvtTick s = .next (State.finish { s with evtTicks := s.evtTicks + 1 } .silent) := by
  rw [execEvtTick, if_neg (by simp [ha]), if_pos ht]

/-- EVT_TICK at the end of the timeout (R206). -/
theorem execEvtTick_of_expiry (ha : s.evtArmed = true) (ht : s.cfg.mEvt ≤ s.evtTicks + 1) :
    execEvtTick s = .next (s.releaseEvt.finish { TraceRecord.silent with cause := .timeoutAbandonment }) := by
  rw [execEvtTick, if_neg (by simp [ha]), if_neg (Nat.not_lt.2 ht)]

/-- Settles O30: the timer stopped, counting and expiring. -/
theorem evtTickResult : Obligations.EvtTickResult := by
  unfold Obligations.EvtTickResult
  exact ⟨rfl, fun s => ⟨execEvtTick_of_stopped, execEvtTick_of_counting, execEvtTick_of_expiry⟩⟩

end Sys2Proof.Machine
end

section
/-! PROOFS. The timeout of the event line (R209): after EVT_ASSERT the three registers of the line are told by the number
of ticks since, which a tick advances and every operation that R42 gives no mark for them keeps. -/

namespace Sys2Proof.Machine

variable {i : Instr} {is : List Instr} {s t : State} {ts : List TraceRecord} {m k : Nat}

/-- With the timeout `m`, the event line `k` ticks after the last EVT_ASSERT: up and counted until the `m`-th tick,
released from there on. -/
structure LineAfterTicks (m k : Nat) (s : State) : Prop where
  period : s.cfg.mEvt = m
  up : k < m → s.evtLine = true ∧ s.evtArmed = true ∧ s.evtTicks = k
  released : m ≤ k → s.evtLine = false ∧ s.evtArmed = false

/-- While the timer runs, fewer ticks than the timeout have passed, and `evt_ticks` is their number (R35, R36). -/
theorem LineAfterTicks.of_armed (h : LineAfterTicks m k s) (ha : s.evtArmed = true) : k < m ∧ s.evtTicks = k := by
  have hk : k < m := by
    by_contra hover
    obtain ⟨-, hstopped⟩ := h.released (Nat.not_lt.1 hover)
    exact Bool.false_ne_true (hstopped.symm.trans ha)
  obtain ⟨-, -, hticks⟩ := h.up hk
  exact ⟨hk, hticks⟩

/-- Once the timer has stopped, the timeout has passed (R206). -/
theorem LineAfterTicks.of_stopped (h : LineAfterTicks m k s) (ha : s.evtArmed = false) : m ≤ k := by
  by_contra hunder
  obtain ⟨-, harmed, -⟩ := h.up (Nat.not_le.1 hunder)
  exact Bool.false_ne_true (ha.symm.trans harmed)

/-- EVT_ASSERT starts the count; the timeout is at least one tick (R7, R200). -/
theorem evtAssert_lineAfterTicks (hwf : s.cfg.wf = true) (h : exec .evtAssert s = .next t) :
    LineAfterTicks s.cfg.mEvt 0 t := by
  obtain rfl := Host.Outcome.next.inj h
  obtain ⟨-, hpos⟩ : 1 ≤ s.cfg.nBurst ∧ 1 ≤ s.cfg.mEvt := by simpa [Config.wf] using hwf
  exact { period := rfl, up := fun _ => ⟨rfl, rfl, rfl⟩, released := fun hzero => by omega }

/-- EVT_TICK advances the count, by R206's three branches. -/
theorem LineAfterTicks.evtTick (h : LineAfterTicks m k s) (ht : exec .evtTick s = .next t) :
    LineAfterTicks m (k + 1) t := by
  obtain ⟨ha, rfl⟩ | ⟨ha, hn, rfl⟩ | ⟨ha, hn, rfl⟩ := execEvtTick_cases ht
  case inl =>
    have hover : m ≤ k := h.of_stopped ha
    exact { period := h.period, up := fun _ => by omega, released := fun _ => h.released hover }
  case inr.inl =>
    obtain ⟨hk, hticks⟩ := h.of_armed ha
    obtain ⟨hline, -, -⟩ := h.up hk
    rw [h.period, hticks] at hn
    exact {
      period := h.period
      up := fun _ => ⟨hline, ha, congrArg (· + 1) hticks⟩
      released := fun _ => by omega }
  case inr.inr =>
    obtain ⟨-, hticks⟩ := h.of_armed ha
    rw [h.period, hticks] at hn
    exact { period := h.period, up := fun _ => by omega, released := fun _ => ⟨rfl, rfl⟩ }

/-- R42 gives the marks for the line's registers to BUS_ADDR_TX and the three operations of the line alone. -/
theorem mayWrite_line_eq_false (htx : i ≠ .busAddrTx) (hassert : i ≠ .evtAssert) (hrelease : i ≠ .evtRelease)
    (htick : i ≠ .evtTick) :
    mayWrite i .evtLine = false ∧ mayWrite i .evtArmed = false ∧ mayWrite i .evtTicks = false := by
  cases i with
  | busAddrTx => exact absurd rfl htx
  | evtAssert => exact absurd rfl hassert
  | evtRelease => exact absurd rfl hrelease
  | evtTick => exact absurd rfl htick
  | _ => exact ⟨rfl, rfl, rfl⟩

theorem evtLine_eq_of_value (h : Reg.value .evtLine s = Reg.value .evtLine t) : s.evtLine = t.evtLine :=
  bool_eq_of_toNat_eq (Option.some.inj h)

/-- An operation without a mark for the line's registers leaves the count where it is (R42). -/
theorem LineAfterTicks.other (h : LineAfterTicks m k s) (ht : exec i s = .next t)
    (hmarks : mayWrite i .evtLine = false ∧ mayWrite i .evtArmed = false ∧ mayWrite i .evtTicks = false) :
    LineAfterTicks m k t := by
  obtain ⟨hl, ha, hn⟩ := hmarks
  have hline := evtLine_eq_of_value (exec_keeps_unmarked ht hl)
  have harmed := evtArmed_eq_of_value (exec_keeps_unmarked ht ha)
  have hticks := evtTicks_eq_of_value (exec_keeps_unmarked ht hn)
  have hcfg := (exec_sameChange ht).cfg
  constructor
  case period => rw [hcfg, h.period]
  case up => rw [hline, harmed, hticks]; exact h.up
  case released => rw [hline, harmed]; exact h.released

/-- Over a run without BUS_ADDR_TX, EVT_ASSERT and EVT_RELEASE the count advances by the ticks in the run. -/
theorem LineAfterTicks.of_runOps (h : LineAfterTicks m k s) (htx : .busAddrTx ∉ is) (hassert : .evtAssert ∉ is)
    (hrelease : .evtRelease ∉ is) (hrun : runOps is s = some (ts, t)) :
    LineAfterTicks m (k + is.count .evtTick) t := by
  induction is generalizing k s ts with
  | nil => cases hrun; exact h
  | cons i is ih =>
    obtain ⟨u, us, hexec, hrest, rfl⟩ := (runOps_cons ..).1 hrun
    simp only [List.mem_cons, not_or] at htx hassert hrelease
    obtain ⟨hitx, htx⟩ := htx
    obtain ⟨hiassert, hassert⟩ := hassert
    obtain ⟨hirelease, hrelease⟩ := hrelease
    by_cases htick : i = .evtTick
    · subst htick
      rw [List.count_cons_self, Nat.add_comm (is.count _), ← Nat.add_assoc]
      exact ih (h.evtTick hexec) htx hassert hrelease hrest
    · rw [List.count_cons_of_ne htick]
      have hmarks := mayWrite_line_eq_false (Ne.symm hitx) (Ne.symm hiassert) (Ne.symm hirelease) htick
      exact ih (h.other hexec hmarks) htx hassert hrelease hrest

/-- Settles O53: EVT_ASSERT starts the count at 0 and the run advances it by its ticks. -/
theorem eventLineTimesOut : Obligations.EventLineTimesOut := by
  unfold Obligations.EventLineTimesOut
  intro is s t ts hwf htx hassert hrelease hrun
  obtain ⟨u, us, hexec, hrest, -⟩ := (runOps_cons ..).1 hrun
  have h := (evtAssert_lineAfterTicks hwf hexec).of_runOps htx hassert hrelease hrest
  rw [Nat.zero_add] at h
  refine ⟨fun hunder => ?up, h.released⟩
  case up =>
    obtain ⟨hline, -, hticks⟩ := h.up hunder
    exact ⟨hline, hticks⟩

end Sys2Proof.Machine
end

section
/-! PROOFS. Which operation raises which cause (R220): ten operations never raise one, the other six by their rule's cases. -/

namespace Sys2Proof.Machine

variable {i : Instr} {s t : State}

/-- `c` is the cause that R220's table gives `i` in `s`. -/
structure CauseRaised (i : Instr) (s : State) (c : Cause) : Prop where
  violation : c = .busProtocolViolation ↔
    (i = .busAddrRx ∧ s.state ≠ .idle) ∨ ((∃ d, i = .busDataRx d) ∧ s.state ≠ .wrc ∧ s.state ≠ .rc) ∨
    (i = .busDataTx ∧ s.state ≠ .rrc) ∨ ∃ d, i = .busOther d
  saturation : c = .queueSaturation ↔
    s.qFull = true ∧ ((i = .busAddrRx ∧ s.state = .idle) ∨ ((∃ d, i = .busDataRx d) ∧ s.state = .rc))
  invalid : c = .invalidFirstByte ↔ i = .busDataRx 0x00 ∧ s.state = .wrc
  noise : c = .addressingNoise ↔
    i = .addrTick ∧ s.burstArmed = true ∧ s.cfg.nBurst ≤ s.burstTicks + 1 ∧ validCount s.pulseCount = false
  timeout : c = .timeoutAbandonment ↔ i = .evtTick ∧ s.evtArmed = true ∧ s.cfg.mEvt ≤ s.evtTicks + 1

/-- The operations that R220's table names. -/
def mayRaise : Instr → Bool
  | .busAddrRx | .busDataRx _ | .busDataTx | .busOther _ | .addrTick | .evtTick => true
  | .busStop | .busAddrTx | .reinit _ | .dispTake | .dispExec _ | .addrFall | .addrCommit | .addrEmit | .evtAssert
  | .evtRelease => false

/-- The table gives no cause to an operation that it does not name (R220). -/
theorem CauseRaised.of_unnamed (hi : mayRaise i = false) : CauseRaised i s .none := by
  have hrx : i ≠ .busAddrRx := by rintro rfl; cases hi
  have hdata : ∀ d, i ≠ .busDataRx d := by rintro d rfl; cases hi
  have htx : i ≠ .busDataTx := by rintro rfl; cases hi
  have hother : ∀ d, i ≠ .busOther d := by rintro d rfl; cases hi
  have hburst : i ≠ .addrTick := by rintro rfl; cases hi
  have hevt : i ≠ .evtTick := by rintro rfl; cases hi
  constructor <;> simp [*]

/-- An operation that R220's table does not name raises no cause. -/
theorem exec_cause_of_unnamed (hi : mayRaise i = false) (h : exec i s = .next t) : t.trace.cause = .none := by
  cases i with
  | busStop => obtain rfl := answer_inj h; rfl
  | reinit _ => obtain ⟨-, rfl⟩ := execReinit_cases h; rfl
  | dispTake => obtain ⟨-, ⟨-, rfl⟩ | ⟨-, rfl⟩⟩ := execDispTake_cases h <;> rfl
  | dispExec _ => obtain ⟨r, -, ⟨-, rfl⟩ | ⟨-, rfl⟩⟩ := execDispExec_cases h <;> rfl
  | addrCommit => obtain ⟨-, rfl⟩ | ⟨n, -, -, rfl⟩ := execAddrCommit_cases h <;> rfl
  | addrEmit => obtain ⟨-, rfl⟩ | ⟨-, rfl⟩ := execAddrEmit_cases h <;> rfl
  | busAddrTx | addrFall | evtAssert | evtRelease => obtain rfl := Host.Outcome.next.inj h; rfl
  | _ => cases hi

/-- BUS_ADDR_RX: the queue is full, or the state is not IDLE (R113). -/
theorem busAddrRx_causeRaised (h : execBusAddrRx s = .next t) : CauseRaised .busAddrRx s t.trace.cause := by
  obtain ⟨hs, hf, rfl⟩ | ⟨hs, hf, rfl⟩ | ⟨hs, rfl⟩ := execBusAddrRx_cases h
  · constructor <;> simp [TraceRecord.response, hs, hf]
  · constructor <;> simp [TraceRecord.response, hs, hf]
  · constructor <;> simp [TraceRecord.response, hs]

/-- BUS_DATA_RX: a zero command byte, a full queue at the argument byte, or a byte in another state (R117 to R119). -/
theorem busDataRx_causeRaised {d : Byte} (h : execBusDataRx d s = .next t) :
    CauseRaised (.busDataRx d) s t.trace.cause := by
  obtain ⟨hs, rfl, rfl⟩ | ⟨hs, hd, rfl⟩ | ⟨hs, hf, rfl⟩ | ⟨hs, hf, rfl⟩ | ⟨hw, hr, rfl⟩ := execBusDataRx_cases h
  · constructor <;> simp [TraceRecord.response, hs]
  · constructor
    case invalid => exact iff_of_false nofun fun ⟨hi, _⟩ => hd (Instr.busDataRx.inj hi)
    all_goals simp [TraceRecord.response, hs]
  · constructor <;> simp [TraceRecord.response, hs, hf]
  · constructor <;> simp [TraceRecord.response, hs, hf]
  · constructor <;> simp [TraceRecord.response, hw, hr]

/-- BUS_DATA_TX: the state is not RRC (R129). -/
theorem busDataTx_causeRaised (h : execBusDataTx s = .next t) : CauseRaised .busDataTx s t.trace.cause := by
  obtain ⟨hs, rfl⟩ | ⟨hs, rfl⟩ := execBusDataTx_cases h <;> constructor <;> simp [TraceRecord.response, hs]

/-- BUS_OTHER: always (R133). -/
theorem busOther_causeRaised (d : Byte) : CauseRaised (.busOther d) s .busProtocolViolation := by
  constructor <;> simp

/-- ADDR_TICK: the burst is complete and its count is no doubled pulse (R174, R175). -/
theorem addrTick_causeRaised (h : execAddrTick s = .next t) : CauseRaised .addrTick s t.trace.cause := by
  obtain ⟨ha, rfl⟩ | ⟨ha, hlt, rfl⟩ | ⟨ha, hle, rfl⟩ := execAddrTick_cases h
  · constructor <;> simp [TraceRecord.silent, ha]
  · constructor <;> simp [TraceRecord.silent, ha, Nat.not_le.2 hlt]
  · cases hv : validCount s.pulseCount <;> constructor <;>
      simp [State.completeBurst, TraceRecord.silent, ha, hle, hv]

/-- EVT_TICK: the timer of the event line expires (R206). -/
theorem evtTick_causeRaised (h : execEvtTick s = .next t) : CauseRaised .evtTick s t.trace.cause := by
  obtain ⟨ha, rfl⟩ | ⟨ha, hlt, rfl⟩ | ⟨ha, hle, rfl⟩ := execEvtTick_cases h
  · constructor <;> simp [TraceRecord.silent, ha]
  · constructor <;> simp [TraceRecord.silent, ha, Nat.not_le.2 hlt]
  · constructor <;> simp [TraceRecord.silent, ha, hle]

/-- An operation that completes raises the cause of R220's table. -/
theorem exec_causeRaised (h : exec i s = .next t) : CauseRaised i s t.trace.cause := by
  cases i with
  | busAddrRx => exact busAddrRx_causeRaised h
  | busDataRx _ => exact busDataRx_causeRaised h
  | busDataTx => exact busDataTx_causeRaised h
  | busOther d => obtain rfl := answer_inj h; exact busOther_causeRaised d
  | addrTick => exact addrTick_causeRaised h
  | evtTick => exact evtTick_causeRaised h
  | _ => rw [exec_cause_of_unnamed rfl h]; exact .of_unnamed rfl

/-- Settles O36: the five causes of R220's table, each with its operations and its condition. -/
theorem causesRaisedExactly : Obligations.CausesRaisedExactly := by
  unfold Obligations.CausesRaisedExactly
  intro i s t h
  obtain ⟨hviolation, hsaturation, hinvalid, hnoise, htimeout⟩ := exec_causeRaised h
  exact ⟨hviolation, hsaturation, hinvalid, hnoise, htimeout⟩

end Sys2Proof.Machine
end

section
/-! PROOFS. Reset (R260): the values it gives, and the invariant of the reachable states right after it. -/

namespace Sys2Proof.Machine

variable {c : Config}

/-- The platform's parameters are in their ranges, whatever its open values are (R7). -/
theorem platform_wf : Config.platform.wf = true := by
  simp [Config.wf, Config.platform]

/-- Settles O1: Reset() gives each register its value; the machine's reset is the one for the platform's parameters. -/
theorem resetSetsEveryRegister : Obligations.ResetSetsEveryRegister := by
  unfold Obligations.ResetSetsEveryRegister
  rintro c slots s rfl
  refine ⟨rfl, rfl, rfl, rfl, rfl, rfl, rfl, rfl, rfl, rfl, rfl, rfl, rfl, rfl, rfl, rfl, rfl, ?empty, rfl, ?quiescent,
    ?machine⟩
  case empty => exact qEmpty_iff.2 rfl
  case quiescent => exact quiescent_iff.2 ⟨qEmpty_iff.2 rfl, rfl, rfl, rfl⟩
  case machine => exact ⟨Config.platform, _, rfl, platform_wf, rfl⟩

/-- Whatever its slots hold, the queue is empty after reset (R52, R260). -/
theorem queued_resetOf (c : Config) (slots : Vector Slot 8) : queued (State.resetOf c slots) = [] :=
  queued_eq_nil_iff.2 (qEmpty_iff.2 rfl)

/-- With the engine idle, the queue empty and both timers stopped, only the parameters' ranges are asked for (R7, R260). -/
theorem inv_resetOf (hwf : c.wf = true) (slots : Vector Slot 8) : Inv (State.resetOf c slots) := by
  obtain ⟨hburst, hevt⟩ : 1 ≤ c.nBurst ∧ 1 ≤ c.mEvt := by simpa [Config.wf] using hwf
  exact {
    cfg_wf := hwf
    state_named := ⟨nofun, nofun⟩
    write_room := nofun
    command_latched := nofun
    queued_nonzero := by simp [queued_resetOf]
    inflight_nonzero := nofun
    burst_stopped := fun _ => ⟨rfl, rfl⟩
    burst_counted := nofun
    burst_range := hburst
    pending_valid := nofun
    emit_range := Nat.zero_le _
    line_timed := rfl
    evt_stopped := fun _ => rfl
    evt_range := hevt }

/-- Settles O37: the machine's reset state is the one for the platform's parameters, which are in range. -/
theorem invariantAtReset : Obligations.InvariantAtReset := by
  unfold Obligations.InvariantAtReset
  exact ⟨inv_resetOf platform_wf _, fun _ slots hwf => inv_resetOf hwf slots⟩

end Sys2Proof.Machine
end

section
/-! PROOFS. The queue with the loop stalled (R274): a run without DISP_TAKE only appends. -/

namespace Sys2Proof.Machine

variable {is : List Instr} {s t : State} {ts : List TraceRecord}

/-- Without DISP_TAKE a run appends to the queue what it accepts (R55, R118). -/
theorem runOps_queued (hstalled : .dispTake ∉ is) (hrun : runOps is s = some (ts, t)) :
    queued t = queued s ++ acceptedIn is s := by
  induction is generalizing s ts with
  | nil => cases hrun; exact (List.append_nil _).symm
  | cons i is ih =>
    obtain ⟨u, us, hexec, hrest, rfl⟩ := (runOps_cons ..).1 hrun
    obtain ⟨hi, his⟩ := List.ne_and_not_mem_of_not_mem_cons hstalled
    rw [ih his hrest, exec_queued hexec hi.symm, acceptedIn_cons hexec, List.append_assoc]

/-- Settles O45: the queue grows by what is accepted, and it has room for seven (R54). -/
theorem stalledLoopAcceptsSeven : Obligations.StalledLoopAcceptsSeven := by
  unfold Obligations.StalledLoopAcceptsSeven
  intro is s t ts hstalled hrun
  have hcount : (acceptedIn is s).length + s.qCount = t.qCount := by
    rw [← queued_length t, runOps_queued hstalled hrun, List.length_append, queued_length, Nat.add_comm]
  have hle := qCount_le t
  exact ⟨hcount, by omega⟩

end Sys2Proof.Machine
end

section
/-! PROOFS. Fairness (R281). All four premises are used in one way: a rank that no step raises and that each helpful
operation lowers cannot last for ever, so what the rank is kept up for must come about. -/

namespace Sys2Proof.Machine

variable {i : Instr} {s t : State} {r : Slot} {m k : Nat}

-- the argument from a rank

/-- Where, from `start` on, a helpful operation always comes while there is a rank, no step raises the rank and the helpful
ones lower it, there is no rank. -/
theorem no_rank_of_fair {run : Nat → State} {helpful : Nat → Prop} {HasRank : Nat → State → Prop} {start : Nat}
    (hfair : ∀ n, start ≤ n → ∀ k, HasRank k (run n) → ∃ m, n ≤ m ∧ helpful m)
    (hstep : ∀ n, start ≤ n → ∀ k, HasRank k (run n) →
      ∃ k', HasRank k' (run (n + 1)) ∧ k' ≤ k ∧ (helpful n → k' < k))
    {n : Nat} (hn : start ≤ n) : ¬HasRank k (run n) := by
  induction k using Nat.strong_induction_on generalizing n with
  | h k ihRank =>
    intro hrank
    obtain ⟨m, hm, hhelp⟩ := hfair n hn k hrank
    obtain ⟨wait, rfl⟩ := Nat.exists_eq_add_of_le hm
    induction wait generalizing n with
    | zero =>
      obtain ⟨k', hrank', -, hlower⟩ := hstep n hn k hrank
      exact ihRank k' (hlower hhelp) (Nat.le_succ_of_le hn) hrank'
    | succ wait ihWait =>
      obtain ⟨k', hrank', hle, -⟩ := hstep n hn k hrank
      rcases hle.lt_or_eq with hlt | rfl
      · exact ihRank k' hlt (Nat.le_succ_of_le hn) hrank'
      · exact ihWait (Nat.le_succ_of_le hn) hrank' (by omega) (by rwa [Nat.succ_add])

-- dispatch (F1)

/-- The operations of the dispatcher (R150, R153). -/
def IsDispatch (i : Instr) : Prop := i = .dispTake ∨ ∃ a, i = .dispExec a

/-- `r` is outstanding, and `k` dispatcher operations go before the DISP_EXEC that hands it on: two for each record before
it and its own DISP_TAKE, less the DISP_TAKE already done when a record is in flight. -/
def DispatchesBefore (r : Slot) (k : Nat) (s : State) : Prop :=
  ∃ before rest, outstanding s = before ++ r :: rest ∧ k = 2 * before.length + s.inflight.isNone.toNat

theorem exists_dispatchesBefore (h : r ∈ outstanding s) : ∃ k, DispatchesBefore r k s := by
  obtain ⟨before, rest, hout⟩ := List.append_of_mem h
  exact ⟨_, before, rest, hout, rfl⟩

/-- While a record is outstanding there is something to dispatch: the premise of F1. -/
theorem DispatchesBefore.waiting (h : DispatchesBefore r k s) : s.qEmpty = false ∨ s.inflight ≠ none := by
  obtain ⟨before, rest, hout, -⟩ := h
  by_contra hidle
  simp only [not_or, Bool.not_eq_false, not_not] at hidle
  obtain ⟨hempty, hflight⟩ := hidle
  simp [outstanding, hflight, queued_eq_nil_iff.2 hempty] at hout

/-- DISP_TAKE is one of the operations that go before (R150). -/
theorem DispatchesBefore.dispTake (h : DispatchesBefore r k s) (ht : exec .dispTake s = .next t) :
    ∃ k', DispatchesBefore r k' t ∧ k' < k := by
  obtain ⟨before, rest, hout, rfl⟩ := h
  obtain ⟨hs, hflight, -⟩ := execDispTake_queued ht
  have hkept : outstanding t = outstanding s := by
    simpa [handlerCall_eq_none ht (by simp), accepted] using exec_conserves ht
  have hqueued : queued s = before ++ r :: rest := by simpa [outstanding, hs] using hout
  have htaken : t.inflight.isNone = false := by simp [hflight, hqueued]
  exact ⟨_, ⟨before, rest, hkept.trans hout, rfl⟩, by simp [hs, htaken]⟩

/-- DISP_EXEC hands on `r` or a record before it (R153). -/
theorem DispatchesBefore.dispExec {a : Byte} (h : DispatchesBefore r k s) (ht : exec (.dispExec a) s = .next t)
    (hcall : handlerCall t.trace ≠ some r) : ∃ k', DispatchesBefore r k' t ∧ k' < k := by
  obtain ⟨before, rest, hout, rfl⟩ := h
  obtain ⟨hcalled, hnone⟩ := execDispExec_inflight ht
  obtain ⟨x, hx, -⟩ := execDispExec_cases ht
  have hconserved : x :: outstanding t = before ++ r :: rest := by
    simpa [hcalled, hx, accepted, hout] using exec_conserves ht
  cases before with
  | nil =>
    obtain ⟨rfl, -⟩ := List.cons.inj hconserved
    exact absurd (hcalled.trans hx) hcall
  | cons y before =>
    obtain ⟨-, hout'⟩ := List.cons.inj hconserved
    exact ⟨_, ⟨before, rest, hout', rfl⟩, by simp [hnone, hx]; omega⟩

/-- Any other operation leaves the records before `r` and the record in flight where they are (R57). -/
theorem DispatchesBefore.other (h : DispatchesBefore r k s) (ht : exec i s = .next t) (hi : ¬IsDispatch i) :
    DispatchesBefore r k t := by
  obtain ⟨before, rest, hout, rfl⟩ := h
  obtain ⟨htake, hexec⟩ : i ≠ .dispTake ∧ ∀ a, i ≠ .dispExec a := by simpa [IsDispatch] using hi
  have hmark : mayWrite i .inflight = false := by
    cases i with
    | dispTake => exact absurd rfl htake
    | dispExec a => exact absurd rfl (hexec a)
    | _ => rfl
  have hflight := inflight_eq_of_value (exec_keeps_unmarked ht hmark)
  have hout' : outstanding t = before ++ r :: (rest ++ (accepted i s).toList) := by
    simpa [handlerCall_eq_none ht hexec, hout] using exec_conserves ht
  exact ⟨before, _, hout', by rw [hflight]⟩

/-- One operation that does not hand on `r`: no more go before than did, and one fewer after a dispatcher operation. -/
theorem DispatchesBefore.after_exec (h : DispatchesBefore r k s) (ht : exec i s = .next t)
    (hcall : handlerCall t.trace ≠ some r) : ∃ k', DispatchesBefore r k' t ∧ k' ≤ k ∧ (IsDispatch i → k' < k) := by
  by_cases hi : IsDispatch i
  · obtain ⟨k', h', hlt⟩ : ∃ k', DispatchesBefore r k' t ∧ k' < k := by
      obtain rfl | ⟨a, rfl⟩ := hi
      · exact h.dispTake ht
      · exact h.dispExec ht hcall
    exact ⟨k', h', hlt.le, fun _ => hlt⟩
  · exact ⟨k, h.other ht hi, le_rfl, fun hdispatch => absurd hdispatch hi⟩

/-- Settles O56: a record never handed on would stay outstanding, with ever fewer dispatcher operations before its own. -/
theorem fairDispatchDelivers : Obligations.FairDispatchDelivers := by
  unfold Obligations.FairDispatchDelivers
  intro ops run hrun hfair n r hr
  by_contra! hnever
  obtain ⟨k, hk⟩ := exists_dispatchesBefore hr
  exact no_rank_of_fair (helpful := fun m => IsDispatch (ops m)) (fun m _ _ h => hfair m h.waiting)
    (fun m hm _ h => h.after_exec (hrun m) (hnever m hm)) le_rfl hk

-- commit (F2)

/-- Nothing but a commit takes a pending assignment away; a new burst may replace it (R174, R180). -/
theorem exec_keeps_pending (ht : exec i s = .next t) (hi : i ≠ .addrCommit) (hp : s.assignPending ≠ none) :
    t.assignPending ≠ none := by
  cases i with
  | addrCommit => exact absurd rfl hi
  | addrTick =>
    obtain ⟨-, rfl⟩ | ⟨-, -, rfl⟩ | ⟨-, -, rfl⟩ := execAddrTick_cases ht
    · exact hp
    · exact hp
    · cases hv : validCount s.pulseCount with
      | true => rw [completeBurst_of_valid hv]; exact Option.some_ne_none _
      | false => rw [completeBurst_of_noise hv]; exact hp
  | _ => rwa [assignPending_eq_of_value (exec_keeps_unmarked ht rfl)]

/-- A commit that finds an assignment and the engine idle reports it (R180). -/
theorem addrCommit_assigned (ht : exec .addrCommit s = .next t) (hs : s.state = .idle) (hp : s.assignPending ≠ none) :
    t.trace.assigned ≠ none := by
  have hdriven := exec_outputsDriven ht
  exact hdriven.assigned.2 (hdriven.persistReq.2 ⟨rfl, hs, hp⟩)

/-- Settles O59: the assignment stays pending until a commit comes, which finds the engine idle. -/
theorem fairCommitAssigns : Obligations.FairCommitAssigns := by
  unfold Obligations.FairCommitAssigns
  intro ops run hrun hfair n hp hidle
  by_contra! hnever
  refine no_rank_of_fair (k := 0) (helpful := fun m => ops m = .addrCommit) (HasRank := fun _ s => s.assignPending ≠ none)
    (fun m hm _ h => hfair m h (hidle m hm)) (fun m hm k h => ?step) le_rfl hp
  have hexec := hrun m
  have hi : ops m ≠ .addrCommit := fun hi =>
    addrCommit_assigned (hi ▸ hexec) (hidle m hm) h (hnever m hm hi)
  exact ⟨k, exec_keeps_pending hexec hi h, le_rfl, fun hcommit => absurd hcommit hi⟩

-- emission (F3)

/-- `k` pulses are left to emit (R33). -/
def PulsesLeft (k : Nat) (s : State) : Prop := s.emitRemaining.toNat = k

/-- ADDR_EMIT emits one of the pulses left (R186). -/
theorem PulsesLeft.addrEmit (h : PulsesLeft k s) (ht : exec .addrEmit s = .next t) (he : s.emitRemaining ≠ 0) :
    ∃ k', PulsesLeft k' t ∧ k' < k := by
  obtain ⟨hzero, -⟩ | ⟨-, rfl⟩ := execAddrEmit_cases ht
  · exact absurd hzero he
  · refine ⟨_, rfl, ?_⟩
    calc (s.emitRemaining - 1).toNat
      _ < (s.emitRemaining - 1).toNat + 1 := Nat.lt_succ_self _
      _ = k := (emitRemaining_sub_one he).trans h

/-- Only ADDR_COMMIT and ADDR_EMIT have a mark for the pulses left (R42). -/
theorem PulsesLeft.other (h : PulsesLeft k s) (ht : exec i s = .next t) (hcommit : i ≠ .addrCommit)
    (hemit : i ≠ .addrEmit) : PulsesLeft k t := by
  have hmark : mayWrite i .emitRemaining = false := by
    cases i with
    | addrCommit => exact absurd rfl hcommit
    | addrEmit => exact absurd rfl hemit
    | _ => rfl
  rw [PulsesLeft, emitRemaining_eq_of_value (exec_keeps_unmarked ht hmark)]
  exact h

/-- One operation, no ADDR_COMMIT, with pulses left: as many are left after it, or one fewer after ADDR_EMIT. -/
theorem PulsesLeft.after_exec (h : PulsesLeft k s) (ht : exec i s = .next t) (hcommit : i ≠ .addrCommit)
    (he : s.emitRemaining ≠ 0) : ∃ k', PulsesLeft k' t ∧ k' ≤ k ∧ (i = .addrEmit → k' < k) := by
  by_cases hemit : i = .addrEmit
  · subst hemit
    obtain ⟨k', h', hlt⟩ := h.addrEmit ht he
    exact ⟨k', h', hlt.le, fun _ => hlt⟩
  · exact ⟨k, h.other ht hcommit hemit, le_rfl, fun hi => absurd hi hemit⟩

/-- Settles O57: the pulses left are the rank, and F3 speaks of the states that have some. -/
theorem fairEmissionEnds : Obligations.FairEmissionEnds := by
  unfold Obligations.FairEmissionEnds
  intro ops run hrun hfair n hcommit
  by_contra! hnever
  have hstart : PulsesLeft (run n).emitRemaining.toNat (run n) := rfl
  exact no_rank_of_fair (helpful := fun m => ops m = .addrEmit)
    (fun m hm _ _ => hfair m (Nat.pos_of_ne_zero fun hzero => hnever m hm (BitVec.eq_of_toNat_eq hzero)))
    (fun m hm _ h => h.after_exec (hrun m) (hcommit m hm) (hnever m hm)) le_rfl hstart

-- ticks (F4)

/-- Under the invariant `evt_ticks` says where an asserted line stands in its timeout (R35, R36, R209). -/
theorem Inv.lineAfterTicks (h : Inv s) (hup : s.evtLine = true) : LineAfterTicks s.cfg.mEvt s.evtTicks s where
  period := rfl
  up := fun _ => ⟨hup, h.line_timed.symm.trans hup, rfl⟩
  released := fun hover => absurd h.evt_range (Nat.not_lt.2 hover)

theorem LineAfterTicks.lt_of_up (h : LineAfterTicks m k s) (hup : s.evtLine = true) : k < m := by
  by_contra hover
  obtain ⟨hreleased, -⟩ := h.released (Nat.not_lt.1 hover)
  exact Bool.false_ne_true (hreleased.symm.trans hup)

/-- With the timeout `m`, `k` ticks are left until the line is released. -/
def TicksLeft (m k : Nat) (s : State) : Prop := ∃ passed, LineAfterTicks m passed s ∧ passed + k = m

/-- One operation, no EVT_ASSERT, from and to a line that is up: it is no release, so the ticks left are as many as before,
or one fewer after EVT_TICK. -/
theorem TicksLeft.after_exec (h : TicksLeft m k s) (ht : exec i s = .next t) (hassert : i ≠ .evtAssert)
    (hup : s.evtLine = true) (hup' : t.evtLine = true) : ∃ k', TicksLeft m k' t ∧ k' ≤ k ∧ (i = .evtTick → k' < k) := by
  obtain ⟨passed, hline, hsum⟩ := h
  by_cases htick : i = .evtTick
  · subst htick
    have hlt := hline.lt_of_up hup
    exact ⟨k - 1, ⟨passed + 1, hline.evtTick ht, by omega⟩, by omega, fun _ => by omega⟩
  · have htx : i ≠ .busAddrTx := by
      rintro rfl
      obtain rfl := Host.Outcome.next.inj ht
      cases hup'
    have hrelease : i ≠ .evtRelease := by
      rintro rfl
      obtain rfl := Host.Outcome.next.inj ht
      cases hup'
    have hkept := hline.other ht (mayWrite_line_eq_false htx hassert hrelease htick)
    exact ⟨k, ⟨passed, hkept, hsum⟩, le_rfl, fun hi => absurd hi htick⟩

/-- Settles O58: the ticks left until the timeout are the rank. -/
theorem fairTicksReleaseLine : Obligations.FairTicksReleaseLine := by
  unfold Obligations.FairTicksReleaseLine
  intro ops run hrun hfair n hinv hassert
  by_contra! hnever
  have hup : ∀ m, n ≤ m → (run m).evtLine = true := fun m hm => Bool.eq_true_of_not_eq_false (hnever m hm)
  have hstart : TicksLeft (run n).cfg.mEvt ((run n).cfg.mEvt - (run n).evtTicks) (run n) :=
    ⟨_, hinv.lineAfterTicks (hup n le_rfl), Nat.add_sub_of_le hinv.evt_range.le⟩
  exact no_rank_of_fair (helpful := fun m => ops m = .evtTick) (fun m _ _ _ => (hfair m).2)
    (fun m hm _ h => h.after_exec (hrun m) (hassert m hm) (hup m hm) (hup (m + 1) (Nat.le_succ_of_le hm))) le_rfl hstart

end Sys2Proof.Machine
end
